-- ==== Sys2Proof/Word.lean ====
section
/-! DEFINITION. The machine's words: the byte of every table and codeword (R7), the 32-bit command word (R60) and the
code unit of the input text (R14). The core has no signed quantity, so no other word type is needed (R205). -/

namespace Sys2Proof

/-- A byte, an unsigned 8-bit value (R7). -/
abbrev Byte := BitVec 8

/-- A command word: one 32-bit word, the only command length (R60). -/
abbrev Word := BitVec 32

/-- A code unit of the input text: an unsigned number of `CW` bits. `CW` is a parameter of the core (R6, R14), so the
bound is an invariant of the state and not in the type. -/
abbrev CodeUnit := Nat

end Sys2Proof
end

