-- ==== Sys2Proof/Config.lean ====
section
/-! DEFINITION. What is fixed for one core: the constants of R5, the parameters of R6 as one plain record, and the free
value that stands for a host read the spec leaves unspecified. The values of the parameters are in Machine/Params.lean. -/

namespace Sys2Proof

/-! ## The data the parameters are made of -/

/-- A cell's coordinates: row 0 is the top row, column 0 the left column (R7). -/
structure Pos where
  row : Fin 21
  col : Fin 21
deriving DecidableEq, Repr

/-- The three values of a grid cell (R19, R74). The read port's code 3 never occurs, so the type has no fourth value (U23). -/
inductive Cell
  | unset
  | dark
  | light
deriving DecidableEq, Repr

/-- A 21×21 array, held as 21 rows of 21 elements: `GRID[r][c]` and `RSV[r][c]` (R19, R20). -/
abbrev Grid (α : Type) := Vector (Vector α 21) 21

/-- The parameter `LOG1`: which of its two values, 255 or 0, the table construction leaves in `LOG[1]` (R6, R90). -/
inductive Log1
  | ff
  | zero
deriving DecidableEq, Repr

/-- The parameters of R6. -/
structure Config where
  /-- `LOG1`, default 255. -/
  log1 : Log1
  /-- `GEN`, 7 bytes. -/
  gen : Vector Byte 7
  /-- `RESERVED`, a predicate on (row, column), held as its 441 truth values. -/
  reserved : Grid Bool
  /-- `FMT_A`, 15 coordinates. -/
  fmtA : Vector Pos 15
  /-- `FMT_B`, 15 coordinates. -/
  fmtB : Vector Pos 15
  /-- `EC_L`, the two-bit code of level L. -/
  ecL : BitVec 2
  /-- `CW`, the bits of a code unit; any number from 8 on. -/
  cw : Nat
  /-- `HINT_W`, the bits of `HINT`; any number. -/
  hintW : Nat
deriving DecidableEq, Repr

/-! ## The constants of R5 -/

/-- `N`: the grid side in modules; the types `Pos` and `Grid` carry it. -/
abbrev Config.N : Nat := 21
/-- `NDATA`: data codewords; the type of `DATA` carries it. -/
abbrev Config.NDATA : Nat := 19
/-- `NECC`: error-correction codewords; the type of `ECC` carries it. -/
abbrev Config.NECC : Nat := 7
/-- `NBITS`: bits in the codeword stream, 26 × 8. -/
abbrev Config.NBITS : Nat := 208
/-- `DATABITS`: 19 × 8. -/
abbrev Config.DATABITS : Nat := 152
/-- `CAP`: payload capacity in bytes. -/
abbrev Config.CAP : Nat := 17
/-- `POLY`: the primitive polynomial, 9 bits. -/
abbrev Config.POLY : BitVec 9 := 0x11D
/-- `PAD0`, the first of the alternating pad bytes. -/
abbrev Config.PAD0 : Byte := 0xEC
/-- `PAD1`, the second of the alternating pad bytes. -/
abbrev Config.PAD1 : Byte := 0x11
/-- `BCH_GEN`: the BCH(15,5) generator, in the 15 bits the format encoder works in. -/
abbrev Config.BCH_GEN : BitVec 15 := 0x537
/-- `FMT_MASK`: the format XOR mask. -/
abbrev Config.FMT_MASK : BitVec 15 := 0x5412
/-- `MASK`: the mask pattern number. -/
abbrev Config.MASK : BitVec 3 := 0
/-- `QZ`: the quiet zone in modules. -/
abbrev Config.QZ : Nat := 4
/-- `TOTAL` = `N + 2·QZ`. -/
abbrev Config.TOTAL : Nat := 29
/-- `MINPIX`: the lower bound of `requestedPixels`. -/
abbrev Config.MINPIX : Nat := 28
/-- `DARKMOD`: the dark-module cell. -/
abbrev Config.DARKMOD : Pos := ⟨13, 8⟩

/-- What an unspecified host read returns (R27, R42; log entry 6): nothing is known of it, and it is drawn anew for
each read event, since two reads need not agree. -/
opaque Config.freeRead (draw : Nat) : Nat

end Sys2Proof
end

