-- ==== Sys2Proof/Syntax.lean ====
section
/-! DEFINITION. The syntax: the 20 commands (R63) with operands of exactly the widths of their fields (R61, R62), the six
word formats (R61), what the host can present to a core, and the source form of a command (R66). -/

namespace Sys2Proof

/-- A command, one constructor per row of spec/opcode_table.json. An operand has the width of its field, but for those of
`TXPUSH` and `SETHINT`: these have `CW` and `HINT_W` bits, parameters of the core (R6, R62). -/
inductive Instr
  | nop
  | gfexp (idx : BitVec 9)
  | gflog (a : Byte)
  | gfmul (a b : Byte)
  | txclr
  | txpush (imm : CodeUnit)
  | assemble
  | rsenc
  | gridclr
  | finder
  | timing
  | darkmod
  | reserve
  | place
  | fmtwrite
  | finalize
  | fmtenc (ec : BitVec 2) (mask : BitVec 3)
  | sethint (imm : Nat)
  | render
  | encode
deriving DecidableEq, Repr

/-- The names of the 20 commands: the rows of the opcode map (R63). -/
inductive Mnemonic
  | nop | gfexp | gflog | gfmul
  | txclr | txpush | assemble | rsenc
  | gridclr | finder | timing | darkmod | reserve | place | fmtwrite | finalize
  | fmtenc | sethint | render | encode
deriving DecidableEq, Repr

/-- The six word formats of R61. -/
inductive Format
  | z | a | ab | i9 | i16 | f
deriving DecidableEq, Repr

/-- Why a word is no command (R64 steps 2 and 3). -/
inductive DecodeError
  /-- Bits 31:24 are not an opcode of R63. -/
  | illegalOpcode
  /-- The opcode is listed and a must-be-zero bit of its format is 1. -/
  | reservedField
deriving DecidableEq, Repr

/-- What the host can do to a core: present one command, or reset it. Host reads change no state (R43) and are no event of
the machine. -/
inductive HostEvent
  /-- One command word (R60). -/
  | command (w : Word)
  /-- `TXPUSH` with its code unit as an argument of the command, for a core whose `CW` is not the 16 bits of the word's
  field (R62). -/
  | txpush (imm : CodeUnit)
  /-- `SETHINT` with its operand as an argument, for a core whose `HINT_W` is not 16 (log entry 3). -/
  | sethint (imm : Nat)
  /-- Reset (R240). -/
  | reset
deriving DecidableEq, Repr

/-- A command as written in source, before its literals are checked against its fields (R66). -/
structure SourceCommand where
  mnemonic : Mnemonic
  operands : List Nat
deriving DecidableEq, Repr

/-- A source line (R66): nothing but a comment, a command, or one of the two pseudo-commands. -/
inductive SourceLine
  | blank
  | command (c : SourceCommand)
  | txstr (text : List CodeUnit)
  | layout
deriving DecidableEq, Repr

end Sys2Proof
end

