-- ==== Sys2Proof/Decode.lean ====
section
/-! DEFINITION. Decoding a command word (R61 to R65) and encoding a command, both from the opcode map of R63 and the formats
of R61; the opcode table's view of the decoder. -/

namespace Sys2Proof

/-! ## The opcode map and the formats -/

/-- The opcode of a command (R63). -/
def Mnemonic.opcode : Mnemonic → BitVec 8
  | .nop => 0x00
  | .gfexp => 0x02
  | .gflog => 0x03
  | .gfmul => 0x04
  | .txclr => 0x10
  | .txpush => 0x11
  | .assemble => 0x12
  | .rsenc => 0x13
  | .gridclr => 0x20
  | .finder => 0x21
  | .timing => 0x22
  | .darkmod => 0x23
  | .reserve => 0x24
  | .place => 0x25
  | .fmtwrite => 0x26
  | .finalize => 0x27
  | .fmtenc => 0x28
  | .sethint => 0x30
  | .render => 0x31
  | .encode => 0x3F

/-- The rows of the opcode map, in R63's order. -/
def Mnemonic.all : List Mnemonic :=
  [.nop, .gfexp, .gflog, .gfmul, .txclr, .txpush, .assemble, .rsenc, .gridclr, .finder, .timing, .darkmod, .reserve,
    .place, .fmtwrite, .finalize, .fmtenc, .sethint, .render, .encode]

/-- The command an opcode names, if R63 lists it. -/
def Mnemonic.ofOpcode? (op : BitVec 8) : Option Mnemonic :=
  Mnemonic.all.find? fun m => m.opcode == op

/-- The format of a command (R63). -/
def Mnemonic.format : Mnemonic → Format
  | .gfexp => .i9
  | .gflog => .a
  | .gfmul => .ab
  | .txpush => .i16
  | .sethint => .i16
  | .fmtenc => .f
  | .nop | .txclr | .assemble | .rsenc | .gridclr | .finder | .timing | .darkmod | .reserve | .place | .fmtwrite
  | .finalize | .render | .encode => .z

/-- The bits a format does not name, which must be 0 (R61). -/
def Format.reservedBits : Format → Word
  | .z => 0x00FFFFFF
  | .a => 0x0000FFFF
  | .ab => 0x000000FF
  | .i9 => 0x00FFFE00
  | .i16 => 0x00FF0000
  | .f => 0x00FFFFE0

/-! ## Operand assembly (R62): every operand is a field copied from the word -/

/-- `op`, bits 31:24. -/
def opField (w : Word) : BitVec 8 := w.extractLsb' 24 8
/-- `a` = word[23:16]. -/
def fieldA (w : Word) : Byte := w.extractLsb' 16 8
/-- `b` = word[15:8]. -/
def fieldB (w : Word) : Byte := w.extractLsb' 8 8
/-- `idx` = word[8:0]. -/
def fieldIdx (w : Word) : BitVec 9 := w.extractLsb' 0 9
/-- `imm` = word[15:0]. -/
def fieldImm (w : Word) : BitVec 16 := w.extractLsb' 0 16
/-- `ec` = word[4:3]. -/
def fieldEc (w : Word) : BitVec 2 := w.extractLsb' 3 2
/-- `mask` = word[2:0]. -/
def fieldMask (w : Word) : BitVec 3 := w.extractLsb' 0 3

/-- The command of a given name with the operands of the word (R62). -/
def instrOf (w : Word) : Mnemonic → Instr
  | .nop => .nop
  | .gfexp => .gfexp (fieldIdx w)
  | .gflog => .gflog (fieldA w)
  | .gfmul => .gfmul (fieldA w) (fieldB w)
  | .txclr => .txclr
  | .txpush => .txpush (fieldImm w).toNat
  | .assemble => .assemble
  | .rsenc => .rsenc
  | .gridclr => .gridclr
  | .finder => .finder
  | .timing => .timing
  | .darkmod => .darkmod
  | .reserve => .reserve
  | .place => .place
  | .fmtwrite => .fmtwrite
  | .finalize => .finalize
  | .fmtenc => .fmtenc (fieldEc w) (fieldMask w)
  | .sethint => .sethint (fieldImm w).toNat
  | .render => .render
  | .encode => .encode

/-- Decoding, steps 2 to 4 of R64: the opcode is looked up first, then the reserved bits are checked. -/
def decode (w : Word) : Except DecodeError Instr :=
  match Mnemonic.ofOpcode? (opField w) with
  | none => .error .illegalOpcode
  | some m => if w &&& m.format.reservedBits = 0 then .ok (instrOf w m) else .error .reservedField

/-! ## The encoder -/

/-- Format `Z`: the opcode in bits 31:24 and zeros. -/
def wordZ (m : Mnemonic) : Word := m.opcode.setWidth 32 <<< 24
/-- Format `A`: `a` in bits 23:16. -/
def wordA (m : Mnemonic) (a : Byte) : Word := wordZ m ||| a.setWidth 32 <<< 16
/-- Format `AB`: `a` in bits 23:16, `b` in bits 15:8. -/
def wordAB (m : Mnemonic) (a b : Byte) : Word := wordZ m ||| a.setWidth 32 <<< 16 ||| b.setWidth 32 <<< 8
/-- Format `I9`: `idx` in bits 8:0. -/
def wordI9 (m : Mnemonic) (idx : BitVec 9) : Word := wordZ m ||| idx.setWidth 32
/-- Format `I16`: `imm` in bits 15:0. -/
def wordI16 (m : Mnemonic) (imm : BitVec 16) : Word := wordZ m ||| imm.setWidth 32
/-- Format `F`: `ec` in bits 4:3, `mask` in bits 2:0. -/
def wordF (m : Mnemonic) (ec : BitVec 2) (mask : BitVec 3) : Word :=
  wordZ m ||| ec.setWidth 32 <<< 3 ||| mask.setWidth 32

/-- The word of a command (R61 to R63). A fault records this word in `FINFO`: it is the word that was decoded, since
no bit of a legal word is lost in decoding (log entry 7). -/
def encode : Instr → Word
  | .nop => wordZ .nop
  | .gfexp idx => wordI9 .gfexp idx
  | .gflog a => wordA .gflog a
  | .gfmul a b => wordAB .gfmul a b
  | .txclr => wordZ .txclr
  | .txpush imm => wordI16 .txpush (BitVec.ofNat 16 imm)
  | .assemble => wordZ .assemble
  | .rsenc => wordZ .rsenc
  | .gridclr => wordZ .gridclr
  | .finder => wordZ .finder
  | .timing => wordZ .timing
  | .darkmod => wordZ .darkmod
  | .reserve => wordZ .reserve
  | .place => wordZ .place
  | .fmtwrite => wordZ .fmtwrite
  | .finalize => wordZ .finalize
  | .fmtenc ec mask => wordF .fmtenc ec mask
  | .sethint imm => wordI16 .sethint (BitVec.ofNat 16 imm)
  | .render => wordZ .render
  | .encode => wordZ .encode

/-! ## The opcode table's view -/

/-- The one 32-bit word of a table row whose low `nbits` bits are `w`, the bits above them 0. -/
def tableWord (nbits w : Nat) : Word := BitVec.ofNat 32 (w % 2 ^ nbits)

/-- What the decoder reads from a table word; none where it refuses. -/
def decodeTableWord (nbits w : Nat) : Option Instr := (decode (tableWord nbits w)).toOption

end Sys2Proof
end

