-- ==== Sys2Proof/Machine/Grid.lean ====
section
/-! DEFINITION. The one access path to a 21×21 array: reading and writing one element (R42), building an array from a
predicate on coordinates, the row-major order, and a run of writes. -/

namespace Sys2Proof

/-- `A[r][c]` (R7). -/
def Grid.look {α : Type} (g : Grid α) (p : Pos) : α := g[p.row][p.col]

/-- `A[r][c] <- v` (R7). -/
def Grid.put {α : Type} (g : Grid α) (p : Pos) (v : α) : Grid α := g.set p.row (g[p.row].set p.col v)

/-- The array whose element at each cell is given by its coordinates. -/
def Grid.tabulate {α : Type} (f : Pos → α) : Grid α := Vector.ofFn fun r => Vector.ofFn fun c => f ⟨r, c⟩

/-- The array with one value everywhere. -/
def Grid.fill {α : Type} (v : α) : Grid α := Vector.replicate 21 (Vector.replicate 21 v)

/-- The cells in row-major order: `for r in 0..20: for c in 0..20`. -/
def Pos.all : List Pos := (List.finRange 21).flatMap fun r => (List.finRange 21).map fun c => ⟨r, c⟩

/-- The cell a pair of integers names, or none outside the grid: the clipping test of R142. -/
def Pos.clip? (r c : Int) : Option Pos :=
  if h : 0 ≤ r ∧ r ≤ 20 ∧ 0 ≤ c ∧ c ≤ 20 then some ⟨⟨r.toNat, by omega⟩, ⟨c.toNat, by omega⟩⟩ else none

/-- Writes made one after the other, in list order. -/
def Grid.write {α : Type} (g : Grid α) (ws : List (Pos × α)) : Grid α := ws.foldl (fun g w => g.put w.1 w.2) g

end Sys2Proof
end

