-- ==== Sys2Proof/Machine/Params.lean ====
section
/-! DEFINITION. The values of the parameters of R6: the defaults, the named alternatives, and the two configurations of the
test vectors, DOC and STD. -/

namespace Sys2Proof

/-- `LOG1` as the byte it is (R6). -/
def Log1.byte : Log1 → Byte
  | .ff => 255
  | .zero => 0

/-- `GEN`, the default: the document's literal (R6, R13). -/
def genDoc : Vector Byte 7 := #v[87, 229, 146, 149, 238, 102, 21]

/-- `GEN_STD`, the named alternative (R6). -/
def genStd : Vector Byte 7 := #v[127, 122, 154, 164, 11, 68, 117]

/-- `RESERVED_DOC(r, c)`, clause by clause (R151). -/
def reservedDoc (p : Pos) : Bool :=
  p.row = 6 || p.col = 6
  || (p.row ≤ 8 && p.col ≤ 8)
  || (p.row ≤ 8 && p.col ≥ 12)
  || (p.row ≥ 12 && p.col ≤ 8)
  || (p.row = 13 && p.col = 8)
  || ((p.row = 8 || p.col = 8) && !(p.row = 8 && p.col = 8))

/-- `RESERVED_STD(r, c)`, clause by clause (R152). -/
def reservedStd (p : Pos) : Bool :=
  p.row = 6 || p.col = 6
  || (p.row ≤ 8 && p.col ≤ 8)
  || (p.row ≤ 8 && p.col ≥ 13)
  || (p.row ≥ 13 && p.col ≤ 8)

/-- `FMT_A` (R184): row 8 left to right without the timing cell, then column 8 upward without the timing cell. -/
def fmtA : Vector Pos 15 :=
  #v[⟨8, 0⟩, ⟨8, 1⟩, ⟨8, 2⟩, ⟨8, 3⟩, ⟨8, 4⟩, ⟨8, 5⟩, ⟨8, 7⟩, ⟨8, 8⟩,
    ⟨7, 8⟩, ⟨5, 8⟩, ⟨4, 8⟩, ⟨3, 8⟩, ⟨2, 8⟩, ⟨1, 8⟩, ⟨0, 8⟩]

/-- `FMT_B` (R184): column 8 from row 20 up to row 14, then row 8 from column 13 to column 20. -/
def fmtB : Vector Pos 15 :=
  #v[⟨20, 8⟩, ⟨19, 8⟩, ⟨18, 8⟩, ⟨17, 8⟩, ⟨16, 8⟩, ⟨15, 8⟩, ⟨14, 8⟩,
    ⟨8, 13⟩, ⟨8, 14⟩, ⟨8, 15⟩, ⟨8, 16⟩, ⟨8, 17⟩, ⟨8, 18⟩, ⟨8, 19⟩, ⟨8, 20⟩]

/-- `EC_L` (R6, R182). -/
def ecLDefault : BitVec 2 := 0b01

/-- `CW`, the default (R6). -/
def cwDefault : Nat := 16

/-- `HINT_W`, the default (R6). -/
def hintWDefault : Nat := 16

/-- All defaults: the configuration DOC of the test vectors, and the one the core is reset with (log entry 2). -/
def configDoc : Config :=
  { log1 := .ff, gen := genDoc, reserved := Grid.tabulate reservedDoc, fmtA := fmtA, fmtB := fmtB, ecL := ecLDefault,
    cw := cwDefault, hintW := hintWDefault }

/-- Both alternatives: the configuration STD of the test vectors. -/
def configStd : Config :=
  { configDoc with gen := genStd, reserved := Grid.tabulate reservedStd }

end Sys2Proof
end

