-- ==== Sys2Proof/Machine/State.lean ====
section
/-! DEFINITION. The state of one core (R10), as plain data, and the state after reset (R240, R241).

An element that `holds no value` (R27) is an element whose validity flag is 0. Its field still holds data: no command
and no host read depends on it, which is a statement of its own (log entry 5). -/

namespace Sys2Proof.Machine

/-- The faults a step of this machine can stop with: none. Every fault of the spec (R210) is recorded in `FAULT` and
`FINFO` and leaves a next state, the halted core (R214, R217), so the type has no constructor. Safe: nothing is stopped
that the spec lets go on. -/
inductive Fault
deriving DecidableEq, Repr

/-- The refusals a step can stop with. -/
inductive Refusal
  /-- Raised by an arm of `exec` whose instruction has no meaning yet. No arm of this model raises it. Safe: the machine
  stops where the hardware goes on. -/
  | notModelled (mnemonic : String)
deriving DecidableEq, Repr

/-- `FAULT.CAUSE` (R25, R210). The values 5 to 7 never occur, so the type does not have them (U23). -/
inductive Cause
  /-- 0: no fault. -/
  | none
  /-- 1: bits 31:24 of a word are no opcode (R211). -/
  | illegalOpcode
  /-- 2: a must-be-zero bit of a listed opcode's format is 1 (R212). -/
  | reservedField
  /-- 3: a layout command or `RENDER` with another `PHASE` than it requires (R215). -/
  | phaseOrder
  /-- 4: a command that must read an element that holds no value (R213). -/
  | noValue
deriving DecidableEq, Repr

/-- The fields of `STATUS` (R24). The register's 8 bits are the view `State.statusWord`. -/
structure Status where
  /-- Bit 0: `DATA` holds a value. -/
  dataV : Bool
  /-- Bit 1: `ECC` holds a value computed from the current `DATA`. -/
  eccV : Bool
  /-- Bit 2: `FMT` holds a value. -/
  fmtV : Bool
  /-- Bit 3: `MODPX`, `CANVAS`, `NRECT`, `RECT` hold values. -/
  rendV : Bool
  /-- Bit 4: `RES` holds a value. -/
  resV : Bool
  /-- Bits 7:5: the layout phase counter. -/
  phase : BitVec 3
deriving DecidableEq, Repr

/-- One rectangle of the render instruction set: four unsigned fields (R22, R75). -/
structure Rect where
  x : Nat
  y : Nat
  width : Nat
  height : Nat
deriving DecidableEq, Repr

/-- The state of one core: the tuple of R10, then the two inputs of a step that the interface gives no other place
(log entries 1 and 2). A number whose width follows from a parameter (`CW` or `HINT_W`) is a natural number, and its bound
is an invariant of the machine (log entry 3). -/
structure State where
  /-- `EXP[0..511]` (R11); no command writes it. -/
  exp : Vector Byte 512
  /-- `LOG[0..255]` (R12); no command writes it. `LOG[0]` holds no value. -/
  log : Vector Byte 256
  /-- `GEN[0..6]` (R13); no command writes it. -/
  gen : Vector Byte 7
  /-- `TXT` (R14), code units of `CW` bits, of any length; `TXN` is its length, the view `State.txn`. -/
  txt : List CodeUnit
  /-- `HINT`, `HINT_W` bits (R15). -/
  hint : Nat
  /-- `DATA[0..18]` (R16), a value when `DATA_V` = 1. -/
  data : Vector Byte 19
  /-- `ECC[0..6]` (R17), a value when `ECC_V` = 1. -/
  ecc : Vector Byte 7
  /-- `GRID` (R19). -/
  grid : Grid Cell
  /-- `RSV` (R20). -/
  rsv : Grid Bool
  /-- `FMT`, 15 bits (R21), a value when `FMT_V` = 1. -/
  fmt : BitVec 15
  /-- `MODPX`, 12 bits when `HINT_W` = 16 (R22), a value when `REND_V` = 1. -/
  modpx : Nat
  /-- `CANVAS`, 17 bits when `HINT_W` = 16 (R22), a value when `REND_V` = 1. -/
  canvas : Nat
  /-- `NRECT`, 9 bits (R22), a value when `REND_V` = 1. -/
  nrect : BitVec 9
  /-- `RECT[0..NRECT-1]` (R22), a value when `REND_V` = 1. -/
  rect : List Rect
  /-- `RES` (R23), a value when `RES_V` = 1. -/
  res : Byte
  /-- `STATUS` (R24). -/
  status : Status
  /-- `FAULT.CAUSE`, bits 2:0 of `FAULT`; bits 7:3 read 0 (R25). -/
  fault : Cause
  /-- `FINFO`, 32 bits (R25), a value when `CAUSE` ≠ 0. -/
  finfo : Word
  /-- The parameters of R6, an input of the step that no command writes (R10). -/
  cfg : Config
  /-- What the host will present, in order: an input of the step (R10, R60). -/
  port : List HostEvent
deriving DecidableEq, Repr

/-- The reset values of a core with the given parameters (R11 to R25, R241). The elements that hold no value after reset
(`LOG[0]`, `DATA`, `ECC`, `FMT`, `MODPX`, `CANVAS`, `NRECT`, `RECT`, `RES`, `FINFO`) have a zero in their field
(DESIGN CHOICE, log entry 5). -/
def State.resetWith (c : Config) : State :=
  { exp := expTable
    log := logTable c.log1
    gen := c.gen
    txt := []
    hint := 0
    data := Vector.replicate 19 0
    ecc := Vector.replicate 7 0
    grid := Grid.fill .unset
    rsv := Grid.fill false
    fmt := 0
    modpx := 0
    canvas := 0
    nrect := 0
    rect := []
    res := 0
    status := { dataV := false, eccV := false, fmtV := false, rendV := false, resV := false, phase := 0 }
    fault := .none
    finfo := 0
    cfg := c
    port := [] }

/-- The machine right after reset, with every parameter at its default (R6, R241; log entry 2) and nothing presented. -/
def State.reset : State := State.resetWith configDoc

end Sys2Proof.Machine
end

