-- ==== Sys2Proof/Machine/Flags.lean ====
section
/-! DEFINITION. The status and fault registers as the words the host reads (R24, R25), and every change a command makes to a
validity flag or to `PHASE`. There are no arithmetic flags (R27). -/

namespace Sys2Proof.Machine

/-- `CAUSE` as its three bits (R25). -/
def Cause.code : Cause → BitVec 3
  | .none => 0
  | .illegalOpcode => 1
  | .reservedField => 2
  | .phaseOrder => 3
  | .noValue => 4

/-- The cause of a word that is no command (R64). -/
def causeOfDecodeError : DecodeError → Cause
  | .illegalOpcode => .illegalOpcode
  | .reservedField => .reservedField

/-- `STATUS` as its eight bits (R24). -/
def State.statusWord (s : State) : BitVec 8 :=
  s.status.phase ++ BitVec.ofBool s.status.resV ++ BitVec.ofBool s.status.rendV ++ BitVec.ofBool s.status.fmtV
    ++ BitVec.ofBool s.status.eccV ++ BitVec.ofBool s.status.dataV

/-- `FAULT` as its eight bits: `CAUSE`, and bits 7:3 read 0 (R25). -/
def State.faultWord (s : State) : BitVec 8 := 0#5 ++ s.fault.code

/-- `ASSEMBLE`: `DATA_V` set, `ECC_V` cleared (R123). -/
def Status.assembled (f : Status) : Status := { f with dataV := true, eccV := false }

/-- `RSENC`: `ECC_V` set (R111). -/
def Status.eccDone (f : Status) : Status := { f with eccV := true }

/-- `FMTENC`: `FMT_V` set (R181). -/
def Status.fmtDone (f : Status) : Status := { f with fmtV := true }

/-- `RENDER`: `REND_V` set, `PHASE` as it was (R192). -/
def Status.rendered (f : Status) : Status := { f with rendV := true }

/-- `GFEXP`, `GFLOG`, `GFMUL`: `RES_V` set (R92 to R94). -/
def Status.resDone (f : Status) : Status := { f with resV := true }

/-- `GRIDCLR`: `PHASE` 0, `REND_V` cleared (R141). -/
def Status.gridCleared (f : Status) : Status := { f with phase := 0, rendV := false }

/-- A layout command's step of the phase counter (R140). -/
def Status.atPhase (f : Status) (p : BitVec 3) : Status := { f with phase := p }

end Sys2Proof.Machine
end

