-- ==== Sys2Proof/Machine/Ops.lean ====
section
/-! DEFINITION. The named operations over the registers and arrays of a core: one write per register group with the flags it
carries, fault entry (R214), the three checks a command makes before it does anything (R210, R216), and reset (R240).
There is no return from a fault (R218), so reset stands where a return would. -/

namespace Sys2Proof.Machine

/-- What a meaning answers. -/
abbrev Answer := Host.Outcome State Fault Refusal

/-! ## Register writes -/

/-- `TXN` (R14). -/
def State.txn (s : State) : Nat := s.txt.length

/-- `RES <- v; RES_V <- 1`. -/
def State.setRes (s : State) (v : Byte) : State := { s with res := v, status := s.status.resDone }

/-- `TXT` becomes `t`. -/
def State.setTxt (s : State) (t : List CodeUnit) : State := { s with txt := t }

/-- `HINT <- h`. -/
def State.setHint (s : State) (h : Nat) : State := { s with hint := h }

/-- `DATA <- d; DATA_V <- 1; ECC_V <- 0`. -/
def State.setData (s : State) (d : Vector Byte 19) : State := { s with data := d, status := s.status.assembled }

/-- `ECC <- e; ECC_V <- 1`. -/
def State.setEcc (s : State) (e : Vector Byte 7) : State := { s with ecc := e, status := s.status.eccDone }

/-- `FMT <- f; FMT_V <- 1`. -/
def State.setFmt (s : State) (f : BitVec 15) : State := { s with fmt := f, status := s.status.fmtDone }

/-- `GRID <- g; PHASE <- p`: what a layout command that writes the grid does (R140). -/
def State.setGrid (s : State) (g : Grid Cell) (p : BitVec 3) : State :=
  { s with grid := g, status := s.status.atPhase p }

/-- All of `GRID` `Unset`; `PHASE <- 0; REND_V <- 0` (R141). -/
def State.clearGrid (s : State) : State :=
  { s with grid := Grid.fill .unset, status := s.status.gridCleared }

/-- `RSV <- r; PHASE <- p` (R150). -/
def State.setRsv (s : State) (r : Grid Bool) (p : BitVec 3) : State :=
  { s with rsv := r, status := s.status.atPhase p }

/-- `MODPX`, `CANVAS`, `NRECT`, `RECT` written; `REND_V <- 1` (R192). -/
def State.setRender (s : State) (m c : Nat) (n : BitVec 9) (r : List Rect) : State :=
  { s with modpx := m, canvas := c, nrect := n, rect := r, status := s.status.rendered }

/-- What the host has still to present. -/
def State.setPort (s : State) (p : List HostEvent) : State := { s with port := p }

/-! ## Faults -/

/-- Fault entry: `FAULT.CAUSE <- cause; FINFO <- word`, and nothing else changes (R214). -/
def State.takeFault (s : State) (c : Cause) (w : Word) : State := { s with fault := c, finfo := w }

/-- The core is halted: `FAULT.CAUSE` ≠ 0 (R217). -/
def State.halted (s : State) : Bool := s.fault ≠ .none

/-- `if PHASE != p: raise PhaseOrder(word)`, else the command goes on (R140, R215). -/
def whenPhase (p : BitVec 3) (i : Instr) (s : State) (k : Answer) : Answer :=
  if s.status.phase = p then k else .next (s.takeFault .phaseOrder (encode i))

/-- `if the element holds no value: raise NoValue(word)`, else the command goes on (R213). -/
def whenValue (has : Bool) (i : Instr) (s : State) (k : Answer) : Answer :=
  if has then k else .next (s.takeFault .noValue (encode i))

/-- `if a bit of the operand is above its field: raise ReservedField(word)`, else the command goes on. The field of `TXPUSH` is
`CW` bits wide (R62), so in a core of fewer than 16 the bits of `I16` above it are bits the format does not name (R61, R212;
DEDUCED, log entry 3). For `SETHINT` and `HINT_W` the spec has no such rule: R190 reserves bits 23:16 only, and that a
wider operand faults is the model's choice (DESIGN CHOICE, log entry 3). -/
def whenFits (bits operand : Nat) (i : Instr) (s : State) (k : Answer) : Answer :=
  if operand < 2 ^ bits then k else .next (s.takeFault .reservedField (encode i))

/-! ## Reset -/

/-- Reset: every element at the value its own rule gives (R240). The parameters are the core's own and stay; what the host
has still to present is no part of the core (log entry 8). -/
def State.resetCore (s : State) : State := (State.resetWith s.cfg).setPort s.port

end Sys2Proof.Machine
end

