-- ==== Sys2Proof/Machine/Operands.lean ====
section
/-! DEFINITION. Operands as the commands use them: the operand-indexed table reads (R204), the product of two byte operands
(R95), the payload bytes of the text (R122 step a) and the codewords and bits of the stream (R18). A command forms no
index outside its array (R42): each bound is shown where the index is formed. -/

namespace Sys2Proof.Machine

/-- `EXP[idx]`: all 512 indices are legal (R92). -/
def expAt (exp : Vector Byte 512) (idx : BitVec 9) : Byte := exp[idx.toNat]'(idx.isLt)

/-- `LOG[a]` (R93). -/
def logAt (log : Vector Byte 256) (a : Byte) : Byte := log[a.toNat]'(a.isLt)

/-- `gfMultiply(a, b)`: 0 if an operand is 0, without reading `LOG`; else `EXP[LOG[a] + LOG[b]]`, the sum an integer
0..510 that is not reduced (R95). -/
def gfMultiply (exp : Vector Byte 512) (log : Vector Byte 256) (a b : Byte) : Byte :=
  if a = 0 ∨ b = 0 then 0
  else exp[(logAt log a).toNat + (logAt log b).toNat]'(by have := (logAt log a).isLt; have := (logAt log b).isLt; omega)

/-- The payload bytes `p[0..L-1]`: the first 17 code units, each masked to 8 bits (R122). -/
def payload (text : List CodeUnit) : List Byte := (text.take Config.CAP).map (BitVec.ofNat 8)

/-- `cw(n)`: `DATA[n]` for `n` in 0..18, `ECC[n - 19]` for `n` in 19..25 (R18). -/
def codeword (data : Vector Byte 19) (ecc : Vector Byte 7) (n : Nat) : Byte :=
  if h : n < 19 then data[n] else if h : n - 19 < 7 then ecc[n - 19] else 0

/-- `streamBit(k)`: most significant bit first within a codeword; 0 once the stream is exhausted (R18). -/
def streamBit (data : Vector Byte 19) (ecc : Vector Byte 7) (k : Nat) : Bool :=
  if k < Config.NBITS then (codeword data ecc (k / 8)).getLsbD (7 - k % 8) else false

/-- The cell a data or format bit is written as: 1 is `Dark`, 0 is `Light` (R74). -/
def cellOfBit (b : Bool) : Cell := if b then .dark else .light

end Sys2Proof.Machine
end

