-- ==== Sys2Proof/Machine/Assembler.lean ====
section
/-! DEFINITION. The Codeword Assembler: loading the text (R120, R121), the steps (a) to (h) of `assemble` (R122) over a bit
sequence as the document writes them, and the command `ASSEMBLE` (R123). -/

namespace Sys2Proof.Machine

/-- `for k in 7 downto 0: emit v[k]` (R44). -/
def emitByte (v : Byte) : List Bool :=
  [v.getLsbD 7, v.getLsbD 6, v.getLsbD 5, v.getLsbD 4, v.getLsbD 3, v.getLsbD 2, v.getLsbD 1, v.getLsbD 0]

/-- Steps (b) to (d): the mode nibble 0100, the count, the payload bytes. -/
def headerBits (p : List Byte) : List Bool :=
  [false, true, false, false] ++ (emitByte (BitVec.ofNat 8 p.length) ++ p.flatMap emitByte)

/-- Step (e): at most four zero bits, and none when no bits remain of the 152. -/
def terminate (bits : List Bool) : List Bool :=
  bits ++ List.replicate (min 4 (Config.DATABITS - bits.length)) false

/-- Step (f): zero bits up to the next multiple of 8. -/
def alignBits (bits : List Bool) : List Bool :=
  bits ++ List.replicate ((8 - bits.length % 8) % 8) false

/-- Step (g): eight bits to a byte, the first the most significant. -/
def packBytes : List Bool → List Byte
  | b7 :: b6 :: b5 :: b4 :: b3 :: b2 :: b1 :: b0 :: rest =>
    (BitVec.ofBool b7 ++ BitVec.ofBool b6 ++ BitVec.ofBool b5 ++ BitVec.ofBool b4 ++ BitVec.ofBool b3 ++ BitVec.ofBool b2
      ++ BitVec.ofBool b1 ++ BitVec.ofBool b0) :: packBytes rest
  | _ => []

/-- Step (h): `n` pad bytes, 0xEC and 0x11 in turn, 0xEC first. -/
def padBytes (n : Nat) : List Byte := (List.range n).map fun m => if m % 2 = 0 then Config.PAD0 else Config.PAD1

/-- The data codewords of a text as a list; it has 19 elements for every text (R122, R125). -/
def assembleList (text : List CodeUnit) : List Byte :=
  let bytes := packBytes (alignBits (terminate (headerBits (payload text))))
  bytes ++ padBytes (Config.NDATA - bytes.length)

/-- `assemble(text)` (R122). -/
def assemble (text : List CodeUnit) : Vector Byte 19 :=
  Vector.ofFn fun n : Fin 19 => (assembleList text).getD n.val 0

/-- The effect of `ASSEMBLE`. -/
def assembleEffect (s : State) : State := s.setData (assemble s.txt)

/-- `TXCLR` (R120). -/
def execTxclr (s : State) : Answer := .next (s.setTxt [])

/-- `TXPUSH imm`: the code unit, of the core's `CW` bits, is stored whole at the end of the text (R121, R62). -/
def execTxpush (imm : CodeUnit) (s : State) : Answer :=
  whenFits s.cfg.cw imm (.txpush imm) s (.next (s.setTxt (s.txt ++ [imm])))

/-- `ASSEMBLE` (R123). -/
def execAssemble (s : State) : Answer := .next (assembleEffect s)

end Sys2Proof.Machine
end

