-- ==== Sys2Proof/Machine/Format.lean ====
section
/-! DEFINITION. The BCH(15,5) Format Encoder: `encodeFormat` (R180) and the command `FMTENC` (R181). -/

namespace Sys2Proof.Machine

/-- `v = (ec << 3) | mask`, in the 15 bits the encoder works in (R180). -/
def formatValue (ec : BitVec 2) (mask : BitVec 3) : BitVec 15 := (ec.setWidth 15 <<< 3) ||| mask.setWidth 15

/-- One step of the reduction: bit `i` of the running remainder is tested, not of the original (R180). -/
def bchStep (rem : BitVec 15) (i : Nat) : BitVec 15 :=
  if rem.getLsbD i then rem ^^^ (Config.BCH_GEN <<< (i - 10)) else rem

/-- The remainder: bits 14 down to 10 reduced in that order (R180). -/
def bchRemainder (v : BitVec 15) : BitVec 15 := [14, 13, 12, 11, 10].foldl bchStep (v <<< 10)

/-- `encodeFormat(ec, mask)` (R180, R73). -/
def encodeFormat (ec : BitVec 2) (mask : BitVec 3) : BitVec 15 :=
  let v := formatValue ec mask
  ((v <<< 10) ||| bchRemainder v) ^^^ Config.FMT_MASK

/-- The effect of `FMTENC`. -/
def fmtencEffect (ec : BitVec 2) (mask : BitVec 3) (s : State) : State := s.setFmt (encodeFormat ec mask)

/-- `FMTENC ec, mask`: all 32 pairs are accepted, in every phase (R181). -/
def execFmtenc (ec : BitVec 2) (mask : BitVec 3) (s : State) : Answer := .next (fmtencEffect ec mask s)

end Sys2Proof.Machine
end

