-- ==== Sys2Proof/Machine/Layout.lean ====
section
/-! DEFINITION. The Matrix Layout Engine (R140 to R157): what each phase writes, as the list of its writes in the order the
pseudocode makes them, and the eight commands with their phase and value checks. -/

namespace Sys2Proof.Machine

/-! ## Function patterns -/

/-- The window -1..7 of R142. -/
def finderWindow : List Int := [-1, 0, 1, 2, 3, 4, 5, 6, 7]

/-- `dark` of R142, by the local coordinates: the border ring and the 3×3 core, inside the 7×7 only. -/
def finderDark (lr lc : Int) : Bool :=
  (0 ≤ lr && lr ≤ 6 && 0 ≤ lc && lc ≤ 6)
    && (lr = 0 || lr = 6 || lc = 0 || lc = 6 || (2 ≤ lr && lr ≤ 4 && 2 ≤ lc && lc ≤ 4))

/-- `finderAt(tr, tc)`: one pattern with its separator, clipped to the grid (R142). -/
def finderAt (tr tc : Int) : List (Pos × Cell) :=
  finderWindow.flatMap fun lr => finderWindow.filterMap fun lc =>
    (Pos.clip? (tr + lr) (tc + lc)).map fun p => (p, if finderDark lr lc then .dark else .light)

/-- The writes of `FINDER` (R143). -/
def finderWrites : List (Pos × Cell) := finderAt 0 0 ++ (finderAt 0 14 ++ finderAt 14 0)

/-- The writes of `TIMING` (R144). -/
def timingWrites : List (Pos × Cell) :=
  ([8, 9, 10, 11, 12] : List (Fin 21)).flatMap fun i =>
    let v : Cell := if i.val % 2 = 0 then .dark else .light
    [(⟨6, i⟩, v), (⟨i, 6⟩, v)]

/-- The write of `DARKMOD` (R145). -/
def darkmodWrites : List (Pos × Cell) := [(Config.DARKMOD, .dark)]

/-! ## The walk and data placement -/

/-- One column pair of the walk: 21 rows in its direction, `col` then `col - 1` in each row. -/
def walkPair (col : Nat) (up : Bool) : List Pos :=
  (List.finRange 21).flatMap fun i =>
    let r : Fin 21 := if up then i.rev else i
    [⟨r, Fin.ofNat 21 col⟩, ⟨r, Fin.ofNat 21 (col - 1)⟩]

/-- The loop of R154 from a right-hand column and a direction, for at most `fuel` pairs: the right-hand column steps from
6 to 5, the direction flips, and the loop ends at column 0 or below. -/
def walkFrom : (fuel : Nat) → (col : Nat) → (up : Bool) → List Pos
  | 0, _, _ => []
  | fuel + 1, col, up =>
    if col = 0 then []
    else
      let c := if col = 6 then 5 else col
      walkPair c up ++ walkFrom fuel (c - 2) (!up)

/-- `walk()`: from column 20, upward first (R154). Twenty-one pairs are more than the loop makes. -/
def walk : List Pos := walkFrom 21 20 true

/-- `mask0(r, c)` (R153). -/
def mask0 (p : Pos) : Bool := (p.row.val + p.col.val) % 2 = 0

/-- The writes of `PLACE`: the cells of the walk that are not reserved, the `k`-th of them taking stream bit `k` under the
mask (R155). -/
def placeWrites (rsv : Grid Bool) (bit : Nat → Bool) : List (Pos × Cell) :=
  (walk.filter fun p => !rsv.look p).zipIdx.map fun w => (w.1, cellOfBit (bit w.2 ^^ mask0 w.1))

/-! ## Format bits and finalization -/

/-- The writes of `FMTWRITE`: position `s` of both sequences carries `FMT[14 - s]` (R156). -/
def fmtWrites (a b : Vector Pos 15) (fmt : BitVec 15) : List (Pos × Cell) :=
  (List.finRange 15).flatMap fun s =>
    let v := cellOfBit (fmt.getLsbD (14 - s.val))
    [(a[s], v), (b[s], v)]

/-- The grid with every `Unset` cell `Light` (R157). -/
def finalizeGrid (g : Grid Cell) : Grid Cell :=
  Grid.tabulate fun p => if g.look p = .unset then .light else g.look p

/-! ## The effects, on a core that meets the command's checks -/

def gridclrEffect (s : State) : State := s.clearGrid
def finderEffect (s : State) : State := s.setGrid (s.grid.write finderWrites) 1
def timingEffect (s : State) : State := s.setGrid (s.grid.write timingWrites) 2
def darkmodEffect (s : State) : State := s.setGrid (s.grid.write darkmodWrites) 3
def reserveEffect (s : State) : State := s.setRsv s.cfg.reserved 4
def placeEffect (s : State) : State := s.setGrid (s.grid.write (placeWrites s.rsv (streamBit s.data s.ecc))) 5
def fmtwriteEffect (s : State) : State := s.setGrid (s.grid.write (fmtWrites s.cfg.fmtA s.cfg.fmtB s.fmt)) 6
def finalizeEffect (s : State) : State := s.setGrid (finalizeGrid s.grid) 7

/-! ## The commands -/

/-- `GRIDCLR`: legal in every phase; `RSV` is left as it is (R141). -/
def execGridclr (s : State) : Answer := .next (gridclrEffect s)

/-- `FINDER` (R143). -/
def execFinder (s : State) : Answer := whenPhase 0 .finder s (.next (finderEffect s))

/-- `TIMING` (R144). -/
def execTiming (s : State) : Answer := whenPhase 1 .timing s (.next (timingEffect s))

/-- `DARKMOD` (R145). -/
def execDarkmod (s : State) : Answer := whenPhase 2 .darkmod s (.next (darkmodEffect s))

/-- `RESERVE`: the predicate of the core's parameters is latched; the grid is not touched (R150). -/
def execReserve (s : State) : Answer := whenPhase 3 .reserve s (.next (reserveEffect s))

/-- `PLACE`: the phase is checked before the values (R155, R216). -/
def execPlace (s : State) : Answer :=
  whenPhase 4 .place s (whenValue (s.status.dataV && s.status.eccV) .place s (.next (placeEffect s)))

/-- `FMTWRITE`: the phase is checked before the value (R156, R216). -/
def execFmtwrite (s : State) : Answer :=
  whenPhase 5 .fmtwrite s (whenValue s.status.fmtV .fmtwrite s (.next (fmtwriteEffect s)))

/-- `FINALIZE` (R157). -/
def execFinalize (s : State) : Answer := whenPhase 6 .finalize s (.next (finalizeEffect s))

end Sys2Proof.Machine
end

