-- ==== Sys2Proof/Machine/ReedSolomon.lean ====
section
/-! DEFINITION. The Reed-Solomon Encoder: the division of R110 and the command `RSENC` (R111). -/

namespace Sys2Proof.Machine

/-- One data byte's step of R110: `factor`, the shift of the accumulator by one position with 0 in the last, and the
multiply-XOR of all seven positions. -/
def rsStep (exp : Vector Byte 512) (log : Vector Byte 256) (gen : Vector Byte 7) (ecc : Vector Byte 7) (d : Byte) :
    Vector Byte 7 :=
  let factor := d ^^^ ecc[0]
  Vector.ofFn fun j : Fin 7 =>
    (if h : j.val < 6 then ecc[j.val + 1] else 0) ^^^ gfMultiply exp log gen[j] factor

/-- `rsEncode(data)`: the accumulator starts at zero and takes the data bytes in order (R110). -/
def rsEncode (exp : Vector Byte 512) (log : Vector Byte 256) (gen : Vector Byte 7) (data : Vector Byte 19) :
    Vector Byte 7 :=
  data.toList.foldl (rsStep exp log gen) (Vector.replicate 7 0)

/-- The effect of `RSENC` on a core whose `DATA` holds a value. -/
def rsencEffect (s : State) : State := s.setEcc (rsEncode s.exp s.log s.gen s.data)

/-- `RSENC` (R111). -/
def execRsenc (s : State) : Answer := whenValue s.status.dataV .rsenc s (.next (rsencEffect s))

end Sys2Proof.Machine
end

