-- ==== Sys2Proof/Machine/Renderer.lean ====
section
/-! DEFINITION. The Renderer: the geometry and rectangle list of R191 and the commands `SETHINT` (R190) and `RENDER` (R192). -/

namespace Sys2Proof.Machine

/-- `requestedPixels = max(28, hint)` (R191). -/
def requestedPixels (hint : Nat) : Nat := max Config.MINPIX hint

/-- `modulePx`: `requestedPixels / 29` rounded to the nearest integer, at least 1 (R191, point (a)). -/
def modulePx (hint : Nat) : Nat := max 1 ((2 * requestedPixels hint + Config.TOTAL) / (2 * Config.TOTAL))

/-- `canvasSize` (R191). -/
def canvasSize (hint : Nat) : Nat := modulePx hint * Config.TOTAL

/-- The rectangle of one cell at a module side of `m` pixels (R191, R75). -/
def rectAt (m : Nat) (p : Pos) : Rect :=
  { x := (p.col.val + Config.QZ) * m, y := (p.row.val + Config.QZ) * m, width := m, height := m }

/-- The `Dark` cells in emission order: row-major (R191, point (b)). -/
def darkCells (g : Grid Cell) : List Pos := Pos.all.filter fun p => g.look p = .dark

/-- The rectangle list (R191). -/
def rectangles (g : Grid Cell) (hint : Nat) : List Rect := (darkCells g).map (rectAt (modulePx hint))

/-- The effect of `RENDER` on a finalized grid. -/
def renderEffect (s : State) : State :=
  s.setRender (modulePx s.hint) (canvasSize s.hint) (BitVec.ofNat 9 (darkCells s.grid).length)
    (rectangles s.grid s.hint)

/-- `SETHINT imm`, an operand of the core's `HINT_W` bits (R190, R15). What an operand above `HINT_W` bits does is not in the
spec; that it takes `ReservedField` is the model's choice (DESIGN CHOICE, log entry 3). -/
def execSethint (imm : Nat) (s : State) : Answer := whenFits s.cfg.hintW imm (.sethint imm) s (.next (s.setHint imm))

/-- `RENDER` (R192). -/
def execRender (s : State) : Answer := whenPhase 7 .render s (.next (renderEffect s))

end Sys2Proof.Machine
end

