-- ==== Sys2Proof/Machine/Control.lean ====
section
/-! DEFINITION. `NOP` (R200) and `ENCODE`, the whole function as one step (R201). -/

namespace Sys2Proof.Machine

/-- The layout part of `ENCODE`: the pseudo-command `LAYOUT` of R66 (R201). -/
def layoutEffect (s : State) : State :=
  finalizeEffect (fmtwriteEffect (fmtencEffect s.cfg.ecL Config.MASK
    (placeEffect (reserveEffect (darkmodEffect (timingEffect (finderEffect (gridclrEffect s))))))))

/-- The effects of the twelve commands of R201, in their order. None of their checks can fail here: each phase follows
its predecessor and every element is written before it is read (R201). -/
def encodeEffect (s : State) : State := renderEffect (layoutEffect (rsencEffect (assembleEffect s)))

/-- `NOP` changes no state (R200). -/
def execNop (s : State) : Answer := .next s

/-- `ENCODE`: legal in every phase, no fault from execution (R201). -/
def execEncode (s : State) : Answer := .next (encodeEffect s)

end Sys2Proof.Machine
end

