-- ==== Sys2Proof/Machine/Galois.lean ====
section
/-! DEFINITION. The Galois Field Engine's commands `GFEXP`, `GFLOG`, `GFMUL` (R92 to R94): windows onto the tables that write
`RES` and `RES_V` only. -/

namespace Sys2Proof.Machine

/-- `GFEXP idx` (R92). -/
def execGfexp (idx : BitVec 9) (s : State) : Answer := .next (s.setRes (expAt s.exp idx))

/-- `GFLOG a`: `NoValue` when `a` = 0, since `LOG[0]` holds no value (R93). -/
def execGflog (a : Byte) (s : State) : Answer :=
  whenValue (a ≠ 0) (.gflog a) s (.next (s.setRes (logAt s.log a)))

/-- `GFMUL a, b` (R94). -/
def execGfmul (a b : Byte) (s : State) : Answer := .next (s.setRes (gfMultiply s.exp s.log a b))

end Sys2Proof.Machine
end

