-- ==== Sys2Proof/Machine/Dispatch.lean ====
section
/-! DEFINITION. exec: one arm per command, each one call of its meaning. -/

namespace Sys2Proof.Machine

/-- Executing a decoded command on a core that is not halted (R64 step 4). -/
def exec (i : Instr) (s : State) : Host.Outcome State Fault Refusal :=
  match i with
  -- Control
  | .nop => Sys2Proof.Machine.execNop s
  -- Galois Field Engine
  | .gfexp idx => Sys2Proof.Machine.execGfexp idx s
  | .gflog a => Sys2Proof.Machine.execGflog a s
  | .gfmul a b => Sys2Proof.Machine.execGfmul a b s
  -- Codeword Assembler, Reed-Solomon Encoder
  | .txclr => Sys2Proof.Machine.execTxclr s
  | .txpush imm => Sys2Proof.Machine.execTxpush imm s
  | .assemble => Sys2Proof.Machine.execAssemble s
  | .rsenc => Sys2Proof.Machine.execRsenc s
  -- Matrix Layout Engine
  | .gridclr => Sys2Proof.Machine.execGridclr s
  | .finder => Sys2Proof.Machine.execFinder s
  | .timing => Sys2Proof.Machine.execTiming s
  | .darkmod => Sys2Proof.Machine.execDarkmod s
  | .reserve => Sys2Proof.Machine.execReserve s
  | .place => Sys2Proof.Machine.execPlace s
  | .fmtwrite => Sys2Proof.Machine.execFmtwrite s
  | .finalize => Sys2Proof.Machine.execFinalize s
  -- Format Encoder
  | .fmtenc ec mask => Sys2Proof.Machine.execFmtenc ec mask s
  -- Renderer
  | .sethint imm => Sys2Proof.Machine.execSethint imm s
  | .render => Sys2Proof.Machine.execRender s
  -- The whole function
  | .encode => Sys2Proof.Machine.execEncode s

end Sys2Proof.Machine
end

