-- ==== Sys2Proof/Machine/Port.lean ====
section
/-! DEFINITION. The command port: what a core does with what the host presents (R60, R64, R217, R240). -/

namespace Sys2Proof.Machine

/-- A command word, in the order of R64: discarded by a halted core, then decoded, then executed. A word that is no
command takes its fault with the word itself in `FINFO` (R211, R212, R214). -/
def acceptWord (w : Word) (s : State) : Answer :=
  if s.halted then .next s
  else
    match decode w with
    | .error e => .next (s.takeFault (causeOfDecodeError e) w)
    | .ok i => exec i s

/-- A command that is no word but comes with its operand as an argument (R62), in the order of R64. -/
def acceptArgument (i : Instr) (s : State) : Answer := if s.halted then .next s else exec i s

/-- One event of the host: a command word; `TXPUSH` or `SETHINT` with an argument, of which the core has `CW` or `HINT_W` bits
(R62; log entry 3); or reset, which a halted core takes too (R218, R240). -/
def acceptEvent (e : HostEvent) (s : State) : Answer :=
  match e with
  | .command w => acceptWord w s
  | .txpush imm => acceptArgument (.txpush (imm % 2 ^ s.cfg.cw)) s
  | .sethint imm => acceptArgument (.sethint (imm % 2 ^ s.cfg.hintW)) s
  | .reset => .next s.resetCore

/-- The next event is consumed when it is accepted (R49). With nothing presented the core waits and nothing changes
(log entry 1). -/
def takeEvent (s : State) : Answer :=
  match s.port with
  | [] => .next s
  | e :: rest => acceptEvent e (s.setPort rest)

end Sys2Proof.Machine
end

