-- ==== Sys2Proof/Machine/Step.lean ====
section
/-! DEFINITION. One step of the machine, and the placing of a word where the next step takes it. -/

namespace Sys2Proof.Machine

/-- One step: the core takes the next thing the host presents, to completion (R46, R60). -/
def step (s : State) : Host.Outcome State Fault Refusal := takeEvent s

/-- `s` with a table word as the next thing the host presents (log entry 4). -/
def State.withFetchWord (s : State) (nbits w : Nat) : State := s.setPort (.command (tableWord nbits w) :: s.port)

end Sys2Proof.Machine
end

