-- ==== Sys2Proof/Machine/HostRead.lean ====
section
/-! DEFINITION. The host read port (R40 to R43): a function of the state, since no read has a side effect. What the spec
leaves unspecified is a free value of the element's width, drawn for each read event (log entry 6). -/

namespace Sys2Proof.Machine

/-- The storage spaces (R40). -/
inductive Space
  | csr | exp | log | gen | txt | data | ecc | grid | rsv | rect
deriving DecidableEq, Repr

/-- The selector numbers of R40, which lists 0 to 9. A number above 9 selects no space, so the model has no read with it, not
even an unspecified one (DESIGN CHOICE, log entry 17): R40 and R42 do not say what such a read does. -/
def spaceOfSelector? (n : Nat) : Option Space :=
  [Space.csr, .exp, .log, .gen, .txt, .data, .ecc, .grid, .rsv, .rect][n]?

/-- A cell on the read port: 0 `Unset`, 1 `Dark`, 2 `Light` (R19). -/
def cellCode : Cell → Nat
  | .unset => 0
  | .dark => 1
  | .light => 2

/-- The element `21·r + c` of a 21×21 array (R40). -/
def gridElement? {α : Type} (g : Grid α) (index : Nat) : Option α :=
  if h : index < 441 then some (g.look ⟨⟨index / 21, by omega⟩, ⟨index % 21, by omega⟩⟩) else none

/-- A value, when its element holds one (R27). -/
def whileValid (valid : Bool) (v : Nat) : Option Nat := if valid then some v else none

/-- The registers of the space `CSR`, by index; none where the register holds no value or there is none (R40, R27). -/
def csrElement? (s : State) (index : Nat) : Option Nat :=
  match index with
  | 0 => some s.statusWord.toNat
  | 1 => some s.faultWord.toNat
  | 2 => whileValid s.halted s.finfo.toNat
  | 3 => some s.hint
  | 4 => whileValid s.status.resV s.res.toNat
  | 5 => some s.txn
  | 6 => whileValid s.status.fmtV s.fmt.toNat
  | 7 => whileValid s.status.rendV s.modpx
  | 8 => whileValid s.status.rendV s.canvas
  | 9 => whileValid s.status.rendV s.nrect.toNat
  | _ => none

/-- Field `f` of a rectangle: 0 `x`, 1 `y`, 2 `width`, 3 `height` (R40). -/
def rectField (r : Rect) (f : Nat) : Nat :=
  match f with
  | 0 => r.x
  | 1 => r.y
  | 2 => r.width
  | _ => r.height

/-- The element `4·i + f` of `RECT`, `i` below `NRECT` (R40). -/
def rectElement? (s : State) (index : Nat) : Option Nat :=
  if index / 4 < s.nrect.toNat then (s.rect[index / 4]?).map fun r => rectField r (index % 4) else none

/-- The element of a space, when the index is in range and the element holds a value (R40, R27, R12). -/
def element? (s : State) (sp : Space) (index : Nat) : Option Nat :=
  match sp with
  | .csr => csrElement? s index
  | .exp => (s.exp[index]?).map (·.toNat)
  | .log => if index = 0 then none else (s.log[index]?).map (·.toNat)
  | .gen => (s.gen[index]?).map (·.toNat)
  | .txt => s.txt[index]?
  | .data => if s.status.dataV then (s.data[index]?).map (·.toNat) else none
  | .ecc => if s.status.eccV then (s.ecc[index]?).map (·.toNat) else none
  | .grid => (gridElement? s.grid index).map cellCode
  | .rsv => (gridElement? s.rsv index).map Bool.toNat
  | .rect => if s.status.rendV then rectElement? s index else none

/-- How many bits a number takes. -/
def bitLength (n : Nat) : Nat := Nat.log2 n + 1

/-- The greatest module side of a core: that of the greatest hint (R22). -/
def maxModulePx (c : Config) : Nat := modulePx (2 ^ c.hintW - 1)

/-- The width of an element in bits (R40, R14, R15, R22 to R25); of an index no register of `CSR` has, 32. The widths of
`MODPX`, `CANVAS` and `RECT` follow from `HINT_W`: they are those of their greatest values, 12, 17 and 16 bits when
`HINT_W` = 16 (R22, R205). -/
def elementBits (c : Config) (sp : Space) (index : Nat) : Nat :=
  match sp with
  | .csr =>
    match index with
    | 0 | 1 | 4 => 8
    | 3 => c.hintW
    | 6 => 15
    | 7 => bitLength (maxModulePx c)
    | 8 => bitLength (maxModulePx c * Config.TOTAL)
    | 9 => 9
    | _ => 32
  | .exp | .log | .gen | .data | .ecc => 8
  | .txt => c.cw
  | .rect => bitLength ((20 + Config.QZ) * maxModulePx c)
  | .grid => 2
  | .rsv => 1

/-- A host read: the element, or an unspecified value of its width where the index is out of range or the element holds no
value (R42, R27). `draw` names the read event: two reads of an unspecified element need not agree. -/
def hostRead (s : State) (sp : Space) (index draw : Nat) : Nat :=
  (element? s sp index).getD (Config.freeRead draw % 2 ^ elementBits s.cfg sp index)

end Sys2Proof.Machine
end

