-- ==== Sys2Proof/WellFormed.lean ====
section
/-! DEFINITION. What is checked of the data the machine is given: a source command's literals must fit its fields (R66), and
a command's operands must fit their fields (R61) and the core's widths (R62), and a configuration must agree with
itself (R158, R184; log entry 13). -/

namespace Sys2Proof

/-! ## Source commands -/

/-- The widths of a command's operands, in source order (R61, R66), on a core with the given parameters: a code unit has
`CW` bits and a hint `HINT_W` (R6, R62). -/
def Mnemonic.operandBits (c : Config) : Mnemonic → List Nat
  | .gfexp => [9]
  | .gflog => [8]
  | .gfmul => [8, 8]
  | .txpush => [c.cw]
  | .sethint => [c.hintW]
  | .fmtenc => [2, 3]
  | .nop | .txclr | .assemble | .rsenc | .gridclr | .finder | .timing | .darkmod | .reserve | .place | .fmtwrite
  | .finalize | .render | .encode => []

/-- Each literal fits its field, and there are as many literals as fields. -/
def operandsFit : List Nat → List Nat → Bool
  | [], [] => true
  | w :: ws, v :: vs => decide (v < 2 ^ w) && operandsFit ws vs
  | [], _ :: _ => false
  | _ :: _, [] => false

/-- A source command is well formed for a core when it has its command's operands, each a literal that fits its
field (R66). -/
def SourceCommand.wellFormed (c : Config) (l : SourceCommand) : Bool :=
  operandsFit (l.mnemonic.operandBits c) l.operands

/-! ## Commands -/

/-- A code unit of at most `cw` bits, a hint of at most `hintW`. The other operands' types have their widths. -/
def Instr.immFits (cw hintW : Nat) : Instr → Bool
  | .txpush imm => imm < 2 ^ cw
  | .sethint imm => imm < 2 ^ hintW
  | .nop | .gfexp _ | .gflog _ | .gfmul _ _ | .txclr | .assemble | .rsenc | .gridclr | .finder | .timing | .darkmod
  | .reserve | .place | .fmtwrite | .finalize | .fmtenc _ _ | .render | .encode => true

/-- The command has a word: its operands fit the fields of R61. -/
def Instr.wellFormed (i : Instr) : Bool := i.immFits 16 16

/-- The command is one of the core's: its operands fit the core's widths (R62). -/
def Instr.fits (c : Config) (i : Instr) : Bool := i.immFits c.cw c.hintW

/-! ## Configurations -/

/-- The three 8×8 blocks `FINDER` writes: each finder pattern with its separator, clipped to the grid (R143). -/
def Pos.isFinder (p : Pos) : Bool :=
  (p.row ≤ 7 && p.col ≤ 7) || (p.row ≤ 7 && p.col ≥ 13) || (p.row ≥ 13 && p.col ≤ 7)

/-- The ten cells `TIMING` writes: row 6 and column 6 at indices 8 to 12 (R144). -/
def Pos.isTiming (p : Pos) : Bool :=
  (p.row = 6 && 8 ≤ p.col && p.col ≤ 12) || (p.col = 6 && 8 ≤ p.row && p.row ≤ 12)

/-- The cell `DARKMOD` writes (R145). -/
def Pos.isDarkModule (p : Pos) : Bool := p = Config.DARKMOD

/-- A cell that `FINDER`, `TIMING` or `DARKMOD` writes. -/
def Pos.isFunction (p : Pos) : Bool := p.isFinder || p.isTiming || p.isDarkModule

/-- The truth value a configuration's `RESERVED` gives a cell. -/
def Config.reservedAt (c : Config) (p : Pos) : Bool := c.reserved[p.row][p.col]

/-- The 30 format cells of a configuration, `FMT_A` then `FMT_B`. -/
def Config.formatCells (c : Config) : List Pos := c.fmtA.toList ++ c.fmtB.toList

/-- Every cell that `FINDER`, `TIMING` or `DARKMOD` writes is reserved (R158). -/
def Config.functionCellsReserved (c : Config) : Bool :=
  decide (∀ r k : Fin 21, Pos.isFunction ⟨r, k⟩ → c.reservedAt ⟨r, k⟩)

/-- The 30 format cells are distinct (R156). -/
def Config.formatCellsDistinct (c : Config) : Bool := decide c.formatCells.Nodup

/-- Every format cell is reserved and none is a cell of an earlier phase (R156, R158, R184). -/
def Config.formatCellsReserved (c : Config) : Bool :=
  c.formatCells.all fun p => c.reservedAt p && !p.isFunction

/-- A code unit has at least 8 bits (R6). -/
def Config.unitWideEnough (c : Config) : Bool := decide (8 ≤ c.cw)

/-- A configuration agrees with itself: what R158 derives for the two named values of `RESERVED` and the sequences of
R184, and what R184 asks of a configured sequence, and the bound R6 gives `CW`. Both named configurations pass it. -/
def Config.wellFormed (c : Config) : Bool :=
  c.functionCellsReserved && c.formatCellsDistinct && c.formatCellsReserved && c.unitWideEnough

end Sys2Proof
end

