-- ==== Sys2Proof/Machine/Source.lean ====
section
/-! DEFINITION. The source form of commands (R66): reading one line of text, checking a command's literals against its
fields, and expanding the two pseudo-commands. Nothing of the machine depends on this file. -/

namespace Sys2Proof.Machine

/-! ## From source commands to commands -/

/-- A well-formed source command as a command of the core; none where a literal does not fit or the count is wrong. -/
def instrOfSource? (c : Config) (l : SourceCommand) : Option Instr :=
  if l.wellFormed c then
    match l.mnemonic, l.operands with
    | .nop, _ => some .nop
    | .gfexp, [i] => some (.gfexp (BitVec.ofNat 9 i))
    | .gflog, [a] => some (.gflog (BitVec.ofNat 8 a))
    | .gfmul, [a, b] => some (.gfmul (BitVec.ofNat 8 a) (BitVec.ofNat 8 b))
    | .txclr, _ => some .txclr
    | .txpush, [u] => some (.txpush u)
    | .assemble, _ => some .assemble
    | .rsenc, _ => some .rsenc
    | .gridclr, _ => some .gridclr
    | .finder, _ => some .finder
    | .timing, _ => some .timing
    | .darkmod, _ => some .darkmod
    | .reserve, _ => some .reserve
    | .place, _ => some .place
    | .fmtwrite, _ => some .fmtwrite
    | .finalize, _ => some .finalize
    | .fmtenc, [e, k] => some (.fmtenc (BitVec.ofNat 2 e) (BitVec.ofNat 3 k))
    | .sethint, [h] => some (.sethint h)
    | .render, _ => some .render
    | .encode, _ => some .encode
    | _, _ => none
  else none

/-- A command in source form: its mnemonic and its operands in the order of R63. -/
def sourceOfInstr : Instr → SourceCommand
  | .nop => ⟨.nop, []⟩
  | .gfexp idx => ⟨.gfexp, [idx.toNat]⟩
  | .gflog a => ⟨.gflog, [a.toNat]⟩
  | .gfmul a b => ⟨.gfmul, [a.toNat, b.toNat]⟩
  | .txclr => ⟨.txclr, []⟩
  | .txpush imm => ⟨.txpush, [imm]⟩
  | .assemble => ⟨.assemble, []⟩
  | .rsenc => ⟨.rsenc, []⟩
  | .gridclr => ⟨.gridclr, []⟩
  | .finder => ⟨.finder, []⟩
  | .timing => ⟨.timing, []⟩
  | .darkmod => ⟨.darkmod, []⟩
  | .reserve => ⟨.reserve, []⟩
  | .place => ⟨.place, []⟩
  | .fmtwrite => ⟨.fmtwrite, []⟩
  | .finalize => ⟨.finalize, []⟩
  | .fmtenc ec mask => ⟨.fmtenc, [ec.toNat, mask.toNat]⟩
  | .sethint imm => ⟨.sethint, [imm]⟩
  | .render => ⟨.render, []⟩
  | .encode => ⟨.encode, []⟩

/-- `TXSTR "s"`: `TXCLR`, then one `TXPUSH` per code unit in order. -/
def expandTxstr (text : List CodeUnit) : List Instr := .txclr :: text.map .txpush

/-- `LAYOUT`, with the core's own `EC_L`. -/
def expandLayout (ecL : BitVec 2) : List Instr :=
  [.gridclr, .finder, .timing, .darkmod, .reserve, .place, .fmtenc ecL Config.MASK, .fmtwrite, .finalize]

/-- The commands of one source line, for a core with the given parameters. -/
def expandLine (c : Config) : SourceLine → Option (List Instr)
  | .blank => some []
  | .command l => (instrOfSource? c l).map fun i => [i]
  | .txstr t => some (expandTxstr t)
  | .layout => some (expandLayout c.ecL)

/-- How the host presents a command to a core: as its word; the operand of `TXPUSH` or `SETHINT` as an argument where the core
has another width than the word's field (R60, R62; log entry 3). -/
def presented (c : Config) (i : Instr) : HostEvent :=
  match i with
  | .txpush imm => if c.cw = 16 then .command (encode i) else .txpush imm
  | .sethint imm => if c.hintW = 16 then .command (encode i) else .sethint imm
  | .nop | .gfexp _ | .gflog _ | .gfmul _ _ | .txclr | .assemble | .rsenc | .gridclr | .finder | .timing | .darkmod
  | .reserve | .place | .fmtwrite | .finalize | .fmtenc _ _ | .render | .encode => .command (encode i)

/-- What the host presents for a program, line by line; none if a line is ill formed. -/
def programEvents (c : Config) : List SourceLine → Option (List HostEvent)
  | [] => some []
  | l :: ls =>
    match expandLine c l, programEvents c ls with
    | some is, some es => some (is.map (presented c) ++ es)
    | _, _ => none

/-! ## Reading a line of text -/

/-- The value of a digit in a base; letters of either case (log entry 9). -/
def digit? (base : Nat) (c : Char) : Option Nat :=
  let n := c.toNat
  let v := if 48 ≤ n && n ≤ 57 then n - 48 else if 97 ≤ n && n ≤ 102 then n - 87 else if 65 ≤ n && n ≤ 70 then n - 55 else base
  if v < base then some v else none

/-- Digits read from the left onto `acc`. -/
def digits? (base acc : Nat) : List Char → Option Nat
  | [] => some acc
  | c :: cs => match digit? base c with
    | some d => digits? base (acc * base + d) cs
    | none => none

/-- A decimal, `0x` hexadecimal or `0b` binary literal. -/
def literal? : List Char → Option Nat
  | [] => none
  | '0' :: 'x' :: c :: cs => digits? 16 0 (c :: cs)
  | '0' :: 'b' :: c :: cs => digits? 2 0 (c :: cs)
  | c :: cs => digits? 10 0 (c :: cs)

/-- Space or tab. -/
def isBlankChar (c : Char) : Bool := c = ' ' || c = '\t'

/-- Without blanks at either end. -/
def trimBlanks (cs : List Char) : List Char := ((cs.dropWhile isBlankChar).reverse.dropWhile isBlankChar).reverse

/-- The parts of a list between separators. -/
def splitAtChar (sep : Char) : List Char → List (List Char)
  | [] => [[]]
  | c :: cs =>
    match splitAtChar sep cs with
    | [] => [[c]]
    | part :: parts => if c = sep then [] :: part :: parts else (c :: part) :: parts

/-- Every element read, or none. -/
def allLiterals? : List (List Char) → Option (List Nat)
  | [] => some []
  | l :: ls =>
    match literal? (trimBlanks l), allLiterals? ls with
    | some n, some ns => some (n :: ns)
    | _, _ => none

/-- The operands of a command line, without its comment. -/
def operands? (cs : List Char) : Option (List Nat) :=
  match trimBlanks cs with
  | [] => some []
  | c :: rest => allLiterals? (splitAtChar ',' (c :: rest))

/-- A mnemonic in upper case (R66). -/
def mnemonicText : Mnemonic → List Char
  | .nop => ['N', 'O', 'P']
  | .gfexp => ['G', 'F', 'E', 'X', 'P']
  | .gflog => ['G', 'F', 'L', 'O', 'G']
  | .gfmul => ['G', 'F', 'M', 'U', 'L']
  | .txclr => ['T', 'X', 'C', 'L', 'R']
  | .txpush => ['T', 'X', 'P', 'U', 'S', 'H']
  | .assemble => ['A', 'S', 'S', 'E', 'M', 'B', 'L', 'E']
  | .rsenc => ['R', 'S', 'E', 'N', 'C']
  | .gridclr => ['G', 'R', 'I', 'D', 'C', 'L', 'R']
  | .finder => ['F', 'I', 'N', 'D', 'E', 'R']
  | .timing => ['T', 'I', 'M', 'I', 'N', 'G']
  | .darkmod => ['D', 'A', 'R', 'K', 'M', 'O', 'D']
  | .reserve => ['R', 'E', 'S', 'E', 'R', 'V', 'E']
  | .place => ['P', 'L', 'A', 'C', 'E']
  | .fmtwrite => ['F', 'M', 'T', 'W', 'R', 'I', 'T', 'E']
  | .finalize => ['F', 'I', 'N', 'A', 'L', 'I', 'Z', 'E']
  | .fmtenc => ['F', 'M', 'T', 'E', 'N', 'C']
  | .sethint => ['S', 'E', 'T', 'H', 'I', 'N', 'T']
  | .render => ['R', 'E', 'N', 'D', 'E', 'R']
  | .encode => ['E', 'N', 'C', 'O', 'D', 'E']

/-- The mnemonic a word spells. -/
def mnemonicOf? (word : List Char) : Option Mnemonic := Mnemonic.all.find? fun m => mnemonicText m = word

/-- The code units of a 7-bit ASCII string; none for another character, to which the spec gives no units (log entry 9). -/
def asciiUnits? : List Char → Option (List CodeUnit)
  | [] => some []
  | c :: cs =>
    match asciiUnits? cs with
    | some us => if c.toNat < 128 then some (c.toNat :: us) else none
    | none => none

/-- The rest of a `TXSTR` line, from the opening quote: the string, then nothing but a comment. The string ends at the next
double quote and there is no escape, so a double quote inside a string cannot be written; R66 does not say how one is
(DESIGN CHOICE, log entry 9). -/
def quoted? (cs : List Char) : Option (List CodeUnit) :=
  match cs with
  | '"' :: rest =>
    match rest.dropWhile fun c => c ≠ '"' with
    | '"' :: after =>
      if trimBlanks (after.takeWhile fun c => c ≠ ';') = [] then asciiUnits? (rest.takeWhile fun c => c ≠ '"') else none
    | _ => none
  | _ => none

/-- One line of source text (R66). -/
def parseLine (line : List Char) : Option SourceLine :=
  let text := line.dropWhile isBlankChar
  let word := text.takeWhile fun c => !isBlankChar c && c ≠ ';'
  let rest := text.drop word.length
  let args := rest.takeWhile fun c => c ≠ ';'
  if word = [] then some .blank
  else if word = ['T', 'X', 'S', 'T', 'R'] then (quoted? (rest.dropWhile isBlankChar)).map .txstr
  else if word = ['L', 'A', 'Y', 'O', 'U', 'T'] then (if trimBlanks args = [] then some .layout else none)
  else
    match mnemonicOf? word, operands? args with
    | some m, some os => some (.command ⟨m, os⟩)
    | _, _ => none

end Sys2Proof.Machine
end

