-- ==== Sys2Proof/Safety.lean ====
section
/-! DEFINITION. The terms the claims use: the end of a run, the invariants of a core, states that differ only where nothing
holds a value, runs of commands, and the mathematics of the spec (GF(256), polynomials, the finder rings, the walk's
order) written apart from the machine's own functions. -/

namespace Sys2Proof.Machine

/-! ## The end of a run (R246) -/

/-- The run has ended well: nothing is left to present and the core is not halted. -/
def State.EndedWell (s : State) : Prop := s.port = [] ∧ s.fault = .none

/-- The run has the result of an encoding: it has ended well with a finalized grid and its rectangles. -/
def State.HasResult (s : State) : Prop := s.EndedWell ∧ s.status.phase = 7 ∧ s.status.rendV = true

/-! ## GF(256) and its polynomials, without tables -/

/-- The product of two bytes as polynomials over GF(2), of degree at most 14. -/
def clProduct (a b : Byte) : BitVec 15 :=
  [0, 1, 2, 3, 4, 5, 6, 7].foldl (fun acc i => if b.getLsbD i then acc ^^^ (a.setWidth 15 <<< i) else acc) 0

/-- The product in GF(2)[x] / (x^8 + x^4 + x^3 + x^2 + 1). -/
def fieldMul (a b : Byte) : Byte :=
  ([14, 13, 12, 11, 10, 9, 8].foldl
    (fun acc i => if acc.getLsbD i then acc ^^^ (0x11D#15 <<< (i - 8)) else acc) (clProduct a b)).setWidth 8

/-- α^n for α = 2. -/
def alphaPow : Nat → Byte
  | 0 => 1
  | n + 1 => fieldMul (alphaPow n) 2

/-- The sum in the field of a list of bytes. -/
def fieldSum (l : List Byte) : Byte := l.foldl (· ^^^ ·) 0

/-- The coefficient of x^e in d(x)·x^7, with d(x) = data[0]·x^18 + ... + data[18]. -/
def shiftedDataCoeff (d : Vector Byte 19) (e : Nat) : Byte := if 7 ≤ e ∧ e ≤ 25 then d.toList.getD (25 - e) 0 else 0

/-- The coefficient of x^e in g(x) = x^7 + gen[0]·x^6 + ... + gen[6]. -/
def generatorCoeff (g : Vector Byte 7) (e : Nat) : Byte :=
  if e = 7 then 1 else if e < 7 then g.toList.getD (6 - e) 0 else 0

/-- The coefficient of x^e in ecc[0]·x^6 + ... + ecc[6]. -/
def remainderCoeff (c : Vector Byte 7) (e : Nat) : Byte := if e < 7 then c.toList.getD (6 - e) 0 else 0

/-- The coefficient of x^e in q(x)·g(x), with q(x) = q[0] + q[1]·x + ... + q[18]·x^18. -/
def productCoeff (q : Vector Byte 19) (g : Vector Byte 7) (e : Nat) : Byte :=
  fieldSum ((List.range 19).map fun i =>
    if i ≤ e then fieldMul (q.toList.getD i 0) (generatorCoeff g (e - i)) else 0)

/-- `c` is the remainder of d(x)·x^7 divided by g(x): d(x)·x^7 = q(x)·g(x) + c(x) for some q, and c has degree below 7. -/
def IsRemainder (g : Vector Byte 7) (d : Vector Byte 19) (c : Vector Byte 7) : Prop :=
  ∃ q : Vector Byte 19, ∀ e : Nat, e ≤ 25 →
    shiftedDataCoeff d e = productCoeff q g e ^^^ remainderCoeff c e

/-- The product over GF(2) of a 5-bit polynomial and the BCH generator x^10+x^8+x^5+x^4+x^2+x+1. -/
def bchMultiple (q : BitVec 5) : BitVec 15 :=
  [0, 1, 2, 3, 4].foldl (fun acc i => if q.getLsbD i then acc ^^^ (0x537#15 <<< i) else acc) 0

/-! ## The layout, by coordinates -/

/-- The distance between two coordinates. -/
def coordDist (a b : Nat) : Nat := (a - b) + (b - a)

/-- The ring of a cell around the centre of a finder pattern: 0 and 1 are the core, 2 the light ring, 3 the border ring, 4
the separator. -/
def ringAround (cr cc : Nat) (p : Pos) : Nat := max (coordDist p.row cr) (coordDist p.col cc)

/-- The ring of a cell of a finder block around the centre of its own pattern. -/
def finderRing (p : Pos) : Nat :=
  ringAround (if p.row ≤ 7 then 3 else 17) (if p.col ≤ 7 then 3 else 17) p

/-- What the function patterns put in a function cell (R142, R144, R145). -/
def functionCell (p : Pos) : Cell :=
  if p.isFinder then (if finderRing p = 2 ∨ finderRing p = 4 then .light else .dark)
  else if p.isDarkModule then .dark
  else if (p.row.val + p.col.val) % 2 = 0 then .dark
  else .light

/-- The phase that writes a function cell (R24). -/
def functionPhase (p : Pos) : Nat := if p.isFinder then 1 else if p.isTiming then 2 else 3

/-- The right-hand column of the pair of columns a cell is visited in (R154). -/
def rightColumn (p : Pos) : Nat := if 7 ≤ p.col.val then p.col + p.col % 2 else p.col + (1 - p.col % 2)

/-- The number of the pair, from 0 at columns (20, 19) to 9 at columns (1, 0). -/
def pairNumber (p : Pos) : Nat := if 7 ≤ p.col.val then (20 - rightColumn p) / 2 else 7 + (5 - rightColumn p) / 2

/-- When a cell is visited: pairs of 42 cells, upward in even pairs, the right column first in each row. No cell of column
6 is visited. -/
def visitNumber (p : Pos) : Nat :=
  42 * pairNumber p + 2 * (if pairNumber p % 2 = 0 then 20 - p.row.val else p.row.val) + (rightColumn p - p.col.val)

/-- A cell takes a data bit when it is not reserved and is visited. -/
def takesBit (rsv : Grid Bool) (p : Pos) : Bool := !rsv.look p && p.col ≠ 6

/-- The number of cells that take a bit before a cell does. -/
def streamPosition (rsv : Grid Bool) (p : Pos) : Nat :=
  Pos.all.countP fun q => takesBit rsv q && decide (visitNumber q < visitNumber p)

/-- Bit `k` of the 26 codewords, most significant first; 0 past their end. -/
def codewordBit (d : Vector Byte 19) (e : Vector Byte 7) (k : Nat) : Bool :=
  ((d.toList ++ e.toList).getD (k / 8) 0).getLsbD (7 - k % 8)

/-! ## Invariants -/

/-- The constant tables hold the constructed contents and `GEN` the parameter (R11 to R13). `LOG[0]` may be anything. -/
def State.TablesOk (s : State) : Prop :=
  s.exp = expTable ∧ (∀ x : Byte, x ≠ 0 → logAt s.log x = logAt (logTable s.cfg.log1) x) ∧ s.gen = s.cfg.gen

/-- The inputs have their widths, and what the validity flags promise: `DATA` is some text's, `ECC` is that of the current
`DATA`, `FMT` is a format word, and the rectangles are those of the finalized grid at some hint (R14 to R17, R21, R22,
R24). -/
structure State.ResultsOk (s : State) : Prop where
  txt : ∀ u ∈ s.txt, u < 2 ^ s.cfg.cw
  hint : s.hint < 2 ^ s.cfg.hintW
  data : s.status.dataV → ∃ t : List CodeUnit, s.data = assemble t
  ecc : s.status.eccV → s.status.dataV ∧ s.ecc = rsEncode s.exp s.log s.gen s.data
  fmt : s.status.fmtV → ∃ ec mask, s.fmt = encodeFormat ec mask
  phase : s.status.rendV → s.status.phase = 7
  rend : s.status.rendV → ∃ h < 2 ^ s.cfg.hintW, s.modpx = modulePx h ∧ s.canvas = canvasSize h ∧
    s.nrect.toNat = (darkCells s.grid).length ∧ s.rect = rectangles s.grid h

/-- What a cell may hold at phase `n`: a function cell its pattern once its phase is done, a format cell a bit once the
format bits are written, a cell that takes a data bit a bit once data is placed, and any other cell `Unset` until
finalization makes it `Light`. -/
def cellFits (c : Config) (n : Nat) (p : Pos) (v : Cell) : Prop :=
  if p.isFunction then v = if n < functionPhase p then .unset else functionCell p
  else if p ∈ c.formatCells then (if n < 6 then v = .unset else v ≠ .unset)
  else if takesBit c.reserved p then (if n < 5 then v = .unset else v ≠ .unset)
  else v = if n < 7 then .unset else .light

/-- The grid and the reserved latch are what the phase says they are (R24, R158, R159). -/
structure State.GridOk (s : State) : Prop where
  cells : ∀ p, cellFits s.cfg s.status.phase.toNat p (s.grid.look p)
  latch : 4 ≤ s.status.phase.toNat → s.rsv = s.cfg.reserved

/-- The reset state R241 summarizes, for a core with the given parameters. -/
structure State.IsReset (t : State) (c : Config) : Prop where
  exp : ∀ i, i < 512 → t.exp.toList.getD i 0 = alphaPow (i % 255)
  log : ∀ x : Byte, x ≠ 0 → alphaPow (logAt t.log x).toNat = x ∧ (x ≠ 1 → 1 ≤ (logAt t.log x).toNat ∧ (logAt t.log x).toNat ≤ 254)
  log1 : logAt t.log 1 = c.log1.byte
  log0 : element? t .log 0 = none
  gen : t.gen = c.gen
  txt : t.txt = [] ∧ t.txn = 0
  hint : t.hint = 0
  flags : t.status.dataV = false ∧ t.status.eccV = false ∧ t.status.fmtV = false ∧ t.status.rendV = false ∧
    t.status.resV = false
  data : ∀ i, element? t .data i = none
  ecc : ∀ i, element? t .ecc i = none
  regs : ∀ i ∈ [2, 4, 6, 7, 8, 9], element? t .csr i = none
  rect : ∀ i, element? t .rect i = none
  grid : ∀ p, t.grid.look p = .unset
  rsv : ∀ p, t.rsv.look p = false
  phase : t.status.phase = 0
  fault : t.fault = .none ∧ t.faultWord = 0
  cfg : t.cfg = c

/-! ## Elements that hold no value (R27) -/

/-- Two states agree except in elements that hold no value. -/
structure State.SameValues (s t : State) : Prop where
  exp : s.exp = t.exp
  log : ∀ x : Byte, x ≠ 0 → logAt s.log x = logAt t.log x
  gen : s.gen = t.gen
  txt : s.txt = t.txt
  hint : s.hint = t.hint
  data : s.status.dataV → s.data = t.data
  ecc : s.status.eccV → s.ecc = t.ecc
  grid : s.grid = t.grid
  rsv : s.rsv = t.rsv
  fmt : s.status.fmtV → s.fmt = t.fmt
  modpx : s.status.rendV → s.modpx = t.modpx
  canvas : s.status.rendV → s.canvas = t.canvas
  nrect : s.status.rendV → s.nrect = t.nrect
  rect : s.status.rendV → s.rect = t.rect
  res : s.status.resV → s.res = t.res
  status : s.status = t.status
  fault : s.fault = t.fault
  finfo : s.fault ≠ .none → s.finfo = t.finfo
  cfg : s.cfg = t.cfg
  port : s.port = t.port

/-! ## Commands and faults -/

/-- The phase a layout command or `RENDER` requires (R140). -/
def requiredPhase? : Instr → Option (BitVec 3)
  | .finder => some 0
  | .timing => some 1
  | .darkmod => some 2
  | .reserve => some 3
  | .place => some 4
  | .fmtwrite => some 5
  | .finalize => some 6
  | .render => some 7
  | .nop | .gfexp _ | .gflog _ | .gfmul _ _ | .txclr | .txpush _ | .assemble | .rsenc | .gridclr | .fmtenc _ _
  | .sethint _ | .encode => none

/-- A command that must read an element that holds no value (R213). -/
def readsNoValue (s : State) : Instr → Bool
  | .rsenc => !s.status.dataV
  | .place => !s.status.dataV || !s.status.eccV
  | .fmtwrite => !s.status.fmtV
  | .gflog a => a = 0
  | .nop | .gfexp _ | .gfmul _ _ | .txclr | .txpush _ | .assemble | .gridclr | .finder | .timing | .darkmod | .reserve
  | .finalize | .fmtenc _ _ | .sethint _ | .render | .encode => false

/-- The one cause a command reports, by the priority of R216; `none` when the command completes. -/
def commandCause (i : Instr) (s : State) : Cause :=
  if requiredPhase? i ≠ none ∧ requiredPhase? i ≠ some s.status.phase then .phaseOrder
  else if readsNoValue s i then .noValue
  else .none

/-- The opcodes R65 lists as illegal. -/
def unlistedOpcode (n : Nat) : Bool :=
  n = 0x01 || (0x05 ≤ n && n ≤ 0x0F) || (0x14 ≤ n && n ≤ 0x1F) || (0x29 ≤ n && n ≤ 0x2F) || (0x32 ≤ n && n ≤ 0x3E)
    || (0x40 ≤ n && n ≤ 0xFF)

/-- The opcodes of R63 with the must-be-zero bits of their formats (R61). -/
def reservedTable : List (BitVec 8 × Word) :=
  [(0x00, 0x00FFFFFF), (0x02, 0x00FFFE00), (0x03, 0x0000FFFF), (0x04, 0x000000FF), (0x10, 0x00FFFFFF), (0x11, 0x00FF0000),
    (0x12, 0x00FFFFFF), (0x13, 0x00FFFFFF), (0x20, 0x00FFFFFF), (0x21, 0x00FFFFFF), (0x22, 0x00FFFFFF),
    (0x23, 0x00FFFFFF), (0x24, 0x00FFFFFF), (0x25, 0x00FFFFFF), (0x26, 0x00FFFFFF), (0x27, 0x00FFFFFF),
    (0x28, 0x00FFFFE0), (0x30, 0x00FF0000), (0x31, 0x00FFFFFF), (0x3F, 0x00FFFFFF)]

/-- `match` and `mask` of each row of spec/opcode_table.json: the fully legal words (R64). -/
def tableRows : List (Word × Word) :=
  [(0x00000000, 0xFFFFFFFF), (0x02000000, 0xFFFFFE00), (0x03000000, 0xFF00FFFF), (0x04000000, 0xFF0000FF),
    (0x10000000, 0xFFFFFFFF), (0x11000000, 0xFFFF0000), (0x12000000, 0xFFFFFFFF), (0x13000000, 0xFFFFFFFF),
    (0x20000000, 0xFFFFFFFF), (0x21000000, 0xFFFFFFFF), (0x22000000, 0xFFFFFFFF), (0x23000000, 0xFFFFFFFF),
    (0x24000000, 0xFFFFFFFF), (0x25000000, 0xFFFFFFFF), (0x26000000, 0xFFFFFFFF), (0x27000000, 0xFFFFFFFF),
    (0x28000000, 0xFFFFFFE0), (0x30000000, 0xFFFF0000), (0x31000000, 0xFFFFFFFF), (0x3F000000, 0xFFFFFFFF)]

/-- The cause a word gives a core, by R216: a halted core keeps its fault; then the opcode, the reserved bits, and the
command's own conditions. -/
def wordCause (w : Word) (s : State) : Cause :=
  if s.fault ≠ .none then s.fault
  else if unlistedOpcode (w.toNat / 2 ^ 24) then .illegalOpcode
  else if reservedTable.any fun r => w.extractLsb' 24 8 == r.1 && w &&& r.2 != 0 then .reservedField
  else
    match decode w with
    | .ok i => commandCause i s
    | .error _ => .none

/-- Operands are the word's fields, by their places in R62. -/
def OperandsOf (w : Word) : Instr → Prop
  | .gfexp idx => idx.toNat = w.toNat % 2 ^ 9
  | .gflog a => a.toNat = w.toNat / 2 ^ 16 % 2 ^ 8
  | .gfmul a b => a.toNat = w.toNat / 2 ^ 16 % 2 ^ 8 ∧ b.toNat = w.toNat / 2 ^ 8 % 2 ^ 8
  | .txpush imm => imm = w.toNat % 2 ^ 16
  | .sethint imm => imm = w.toNat % 2 ^ 16
  | .fmtenc ec mask => ec.toNat = w.toNat / 2 ^ 3 % 2 ^ 2 ∧ mask.toNat = w.toNat % 2 ^ 3
  | .nop | .txclr | .assemble | .rsenc | .gridclr | .finder | .timing | .darkmod | .reserve | .place | .fmtwrite
  | .finalize | .render | .encode => True

/-- A word's high byte is the given opcode and a bit of `reserved` is 1 in it: the core takes `ReservedField` with the word
itself in `FINFO` and changes nothing else (R212, R214). -/
def FaultsOnReserved (op : BitVec 8) (reserved : Word) : Prop :=
  ∀ (w : Word) (s : State) (rest : List HostEvent), w.extractLsb' 24 8 = op → w &&& reserved ≠ 0 → s.fault = .none →
    s.port = .command w :: rest → step s = .next { s with port := rest, fault := .reservedField, finfo := w }

/-- A command's word: it is encoded as `w` and `w` is read as it. -/
def HasWord (i : Instr) (w : Word) : Prop := encode i = w ∧ decode w = .ok i

/-- What the host presents when it sends a core a list of commands. -/
def sent (c : Config) (is : List Instr) : List HostEvent := is.map (presented c)

/-- The commands of `ENCODE` (R201), for a core with the given `EC_L`. -/
def encodeCommands (ecL : BitVec 2) : List Instr :=
  [.assemble, .rsenc, .gridclr, .finder, .timing, .darkmod, .reserve, .place, .fmtenc ecL 0, .fmtwrite, .finalize, .render]

/-- The payload bytes of a text as numbers: the first 17 code units modulo 256 (R124). -/
def payloadValues (t : List CodeUnit) : List Nat := (t.take 17).map (· % 256)

/-- Byte `n` of the data codewords of a payload, by the layout of R71. -/
def layoutByte (p : List Nat) (n : Nat) : Nat :=
  let l := p.length
  if n = 0 then 0x40 ||| (l >>> 4)
  else if n = 1 then ((l &&& 0xF) <<< 4) ||| (p.getD 0 0 >>> 4)
  else if n ≤ l then ((p.getD (n - 2) 0 &&& 0xF) <<< 4) ||| (p.getD (n - 1) 0 >>> 4)
  else if n = l + 1 then (p.getD (l - 1) 0 &&& 0xF) <<< 4
  else if (n - (l + 2)) % 2 = 0 then 0xEC else 0x11

end Sys2Proof.Machine
end

