-- ==== Sys2Proof/Certificates/Slice0/Obligations.lean ====
section
/-! DEFINITION. The statements for the provers. Each docstring names the rule of the spec it formalises. A next state is written
as the state before with the fields that change, so each such equation is also the command's frame: every other register,
array, flag, the fault registers, the parameters and what the host has still to present are unchanged. -/

open Sys2Proof Sys2Proof.Machine

/-! ## Encoding and decoding -/

/-- Decoding a command's word gives the command back, with every operand at every value its field admits (R61 to R63). -/
def Obligations.DecodeOfEncodeIsTheCommand : Prop := ∀ i : Instr, i.wellFormed = true → decode (encode i) = .ok i

/-- No bit of a legal word is lost in decoding: the decoded command is well formed and its word is the word (R61 to R64). -/
def Obligations.EncodeOfDecodeIsTheWord : Prop :=
  ∀ (w : Word) (i : Instr), decode w = .ok i → i.wellFormed = true ∧ encode i = w

/-- A word decodes to a command exactly when it is a fully legal word of a row of the opcode table (R64). -/
def Obligations.LegalWordsAreTheTableRows : Prop :=
  ∀ w : Word, (∃ i, decode w = .ok i) ↔ ∃ r ∈ tableRows, w &&& r.2 = r.1

/-- Every operand is the field of the word R62 names, with no extension, scaling or shift. -/
def Obligations.OperandsAreFieldsOfTheWord : Prop :=
  ∀ (w : Word) (i : Instr), decode w = .ok i → OperandsOf w i

/-- The example words of the command rules, one for each format and family, decode to their commands. -/
def Obligations.ExampleWordsDecode : Prop :=
  decode 0x02000008 = .ok (.gfexp 8) ∧ decode 0x031D0000 = .ok (.gflog 0x1D) ∧
  decode 0x04028000 = .ok (.gfmul 0x02 0x80) ∧ decode 0x11000041 = .ok (.txpush 0x41) ∧
  decode 0x13000000 = .ok .rsenc ∧ decode 0x25000000 = .ok .place ∧ decode 0x28000008 = .ok (.fmtenc 1 0) ∧
  decode 0x300000C8 = .ok (.sethint 200) ∧ decode 0x3F000000 = .ok .encode ∧ decode 0x00000000 = .ok .nop

/-! ## The command port, faults and halting -/

/-- When the host presents a word that decodes to a command, a core that is not halted executes that command, with the word
consumed (R60, R64). A `TXPUSH` whose code unit comes as an argument (R62) is executed with it, and a `SETHINT` likewise
(log entry 3). -/
def Obligations.StepRunsTheDecodedCommand : Prop :=
  (∀ (s : State) (w : Word) (rest : List HostEvent) (i : Instr),
    s.port = .command w :: rest → s.fault = .none → decode w = .ok i → step s = exec i { s with port := rest }) ∧
  ∀ (s : State) (imm : Nat) (rest : List HostEvent), s.fault = .none →
    (s.port = .txpush imm :: rest → imm < 2 ^ s.cfg.cw → step s = exec (.txpush imm) { s with port := rest }) ∧
    (s.port = .sethint imm :: rest → imm < 2 ^ s.cfg.hintW → step s = exec (.sethint imm) { s with port := rest })

/-- R211: each of the 236 unlisted opcode values takes `IllegalOpcode`, whatever the other 24 bits hold, and no other
opcode does. -/
def Obligations.UnlistedOpcodesFault : Prop :=
  ((List.range 256).filter unlistedOpcode).length = 236 ∧
  ∀ (w : Word) (s : State) (rest : List HostEvent), s.fault = .none → s.port = .command w :: rest →
    (unlistedOpcode (w.toNat / 2 ^ 24) = true →
      step s = .next { s with port := rest, fault := .illegalOpcode, finfo := w }) ∧
    (unlistedOpcode (w.toNat / 2 ^ 24) = false → ∀ t, step s = .next t → t.fault ≠ .illegalOpcode)

/-- R212: a listed opcode with a bit set that its format reserves takes `ReservedField`, and the command is not executed. -/
def Obligations.ReservedBitsFault : Prop := ∀ r ∈ reservedTable, FaultsOnReserved r.1 r.2

/-- R217: a halted core discards every command without any change, is never done, and is read as before. -/
def Obligations.HaltedCoreDiscardsWords : Prop :=
  ∀ (s : State) (e : HostEvent) (rest : List HostEvent), s.fault ≠ .none → e ≠ .reset → s.port = e :: rest →
    step s = .next { s with port := rest } ∧ ¬ State.EndedWell { s with port := rest } ∧
    ∀ sp index draw, hostRead { s with port := rest } sp index draw = hostRead s sp index draw

/-- R218: a step keeps the first fault of a halted core unless it is a reset, and a reset clears it. -/
def Obligations.OnlyResetLeavesTheHaltedState : Prop :=
  (∀ s t : State, step s = .next t → s.fault ≠ .none →
    (t.fault = s.fault ∧ t.finfo = s.finfo) ∨ ∃ rest, s.port = .reset :: rest) ∧
  ∀ (s : State) (rest : List HostEvent), s.port = .reset :: rest → ∃ t, step s = .next t ∧ t.fault = .none

/-- R214: fault entry writes `FAULT.CAUSE` and `FINFO` and changes nothing else, whatever the word and the cause; the host
learns of it by reading `FAULT` and `FINFO`. -/
def Obligations.FaultEntryChangesOnlyTheFaultRegisters : Prop :=
  ∀ (s t : State) (w : Word) (rest : List HostEvent), s.port = .command w :: rest → s.fault = .none →
    step s = .next t → t.fault ≠ .none →
    t = { s with port := rest, fault := t.fault, finfo := w } ∧
    (∀ draw, hostRead t .csr 1 draw = t.fault.code.toNat) ∧ (∀ draw, hostRead t .csr 2 draw = w.toNat)

/-- R213, R215: a command of the core, its operand of the core's width, with another phase than it requires takes `PhaseOrder`, else a command that must read an element
that holds no value takes `NoValue`, with every other element unchanged; and without either it completes with no fault. -/
def Obligations.CommandsFaultExactlyOnPhaseAndValue : Prop :=
  ∀ (i : Instr) (s : State), i.fits s.cfg = true →
    (commandCause i s ≠ .none → exec i s = .next { s with fault := commandCause i s, finfo := encode i }) ∧
    (commandCause i s = .none → ∃ t, exec i s = .next t ∧ t.fault = s.fault ∧ t.finfo = s.finfo)

/-- R216: the cause after a word is that of the highest priority, in the order halted, `IllegalOpcode`, `ReservedField`,
`PhaseOrder`, `NoValue`. The word's operand, if it has one, has the core's width (the other words are those of
`TxpushAppendsTheCodeUnit` and `SethintWritesTheHint`). -/
def Obligations.OneCauseByPriority : Prop :=
  ∀ (s : State) (w : Word) (rest : List HostEvent), s.port = .command w :: rest →
    (∀ i, decode w = .ok i → i.fits s.cfg = true) →
    ∃ t, step s = .next t ∧ t.fault = wordCause w s

/-- R223: text of any length and content, any hint (each of the core's widths), any format pair, `GRIDCLR` and `ENCODE` in any phase, and a repeated
`ASSEMBLE`, `RSENC`, `FMTENC` or `RENDER` raise no fault. -/
def Obligations.ToleratedInputsRaiseNoFault : Prop :=
  (∀ s : State, ∀ i : Instr, i.fits s.cfg = true →
    (i = .assemble ∨ i = .gridclr ∨ i = .encode ∨ (∃ u, i = .txpush u) ∨ (∃ h, i = .sethint h) ∨ (∃ e k, i = .fmtenc e k)) →
    ∃ t, exec i s = .next t ∧ t.fault = s.fault) ∧
  ∀ s t : State, ∀ i : Instr, (i = .assemble ∨ i = .rsenc ∨ i = .render ∨ (∃ e k, i = .fmtenc e k)) → s.fault = .none →
    exec i s = .next t → t.fault = .none → ∃ u, exec i t = .next u ∧ u.fault = .none

/-- Every step answers a next state: no command of this core stops it (R202, R246), a fault being a next state too (R214).
With nothing presented nothing changes; that is the model's choice (log entry 1). -/
def Obligations.EveryStepAnswersANextState : Prop :=
  (∀ s : State, ∃ t, step s = .next t) ∧ ∀ s : State, s.port = [] → step s = .next s

/-- Every storage space as the host reads it, each element while it holds a value: the selectors, the registers with the bits
of `STATUS` and `FAULT`, the tables, the text, the codewords, the grid and the latch at `21·r + c` with the codes of the
cells, and field `f` of rectangle `i` at `4·i + f` (R19, R24, R25, R40). That selector 10, which R40 does not list, selects no
space is the model's choice (log entry 17). -/
def Obligations.HostReadsTheRegisters : Prop :=
  ∀ (s : State) (draw : Nat),
    hostRead s .csr 0 draw = s.status.phase.toNat * 2 ^ 5 + s.status.resV.toNat * 2 ^ 4 + s.status.rendV.toNat * 2 ^ 3
      + s.status.fmtV.toNat * 2 ^ 2 + s.status.eccV.toNat * 2 + s.status.dataV.toNat ∧
    hostRead s .csr 1 draw = s.fault.code.toNat ∧
    (s.fault ≠ .none → hostRead s .csr 2 draw = s.finfo.toNat) ∧
    hostRead s .csr 3 draw = s.hint ∧
    (s.status.resV = true → hostRead s .csr 4 draw = s.res.toNat) ∧
    hostRead s .csr 5 draw = s.txt.length ∧
    (s.status.fmtV = true → hostRead s .csr 6 draw = s.fmt.toNat) ∧
    (s.status.rendV = true → hostRead s .csr 7 draw = s.modpx ∧ hostRead s .csr 8 draw = s.canvas ∧
      hostRead s .csr 9 draw = s.nrect.toNat) ∧
    (∀ i, i < 512 → hostRead s .exp i draw = (s.exp.toList.getD i 0).toNat) ∧
    (∀ x, 1 ≤ x → x < 256 → hostRead s .log x draw = (s.log.toList.getD x 0).toNat) ∧
    (∀ i, i < 7 → hostRead s .gen i draw = (s.gen.toList.getD i 0).toNat) ∧
    (∀ i u, s.txt[i]? = some u → hostRead s .txt i draw = u) ∧
    (s.status.dataV = true → ∀ i, i < 19 → hostRead s .data i draw = (s.data.toList.getD i 0).toNat) ∧
    (s.status.eccV = true → ∀ i, i < 7 → hostRead s .ecc i draw = (s.ecc.toList.getD i 0).toNat) ∧
    (∀ r c : Fin 21, hostRead s .grid (21 * r.val + c.val) draw =
        (match s.grid.look ⟨r, c⟩ with | .unset => 0 | .dark => 1 | .light => 2) ∧
      hostRead s .rsv (21 * r.val + c.val) draw = (if s.rsv.look ⟨r, c⟩ then 1 else 0)) ∧
    (s.status.rendV = true → ∀ (i f : Nat) (q : Rect), i < s.nrect.toNat → s.rect[i]? = some q → f < 4 →
      hostRead s .rect (4 * i + f) draw = [q.x, q.y, q.width, q.height].getD f 0) ∧
    (List.range 11).map spaceOfSelector? = [some .csr, some .exp, some .log, some .gen, some .txt, some .data, some .ecc,
      some .grid, some .rsv, some .rect, none]

/-! ## Reset -/

/-- From any state, halted or not, a reset leaves every element as the summary of the reset state says (R241). That it keeps the
parameters and what is still to be presented is the model's choice (log entry 8), and so is that the machine starts with
the default parameters (log entry 2). -/
def Obligations.ResetGivesTheSummarizedState : Prop :=
  State.IsReset State.reset configDoc ∧
  ∀ (s : State) (rest : List HostEvent), s.port = .reset :: rest →
    ∃ t, step s = .next t ∧ State.IsReset t s.cfg ∧ t.port = rest

/-- Every reset state has the invariants, whatever the parameters (R240). Both named configurations are well formed (R151,
R152, R158, R184; what well formed asks for is log entry 13). -/
def Obligations.ResetHasTheInvariants : Prop :=
  configDoc.wellFormed = true ∧ configStd.wellFormed = true ∧
  ∀ c : Config, (State.resetWith c).TablesOk ∧ (State.resetWith c).ResultsOk ∧ (State.resetWith c).GridOk

/-! ## Galois Field Engine -/

/-- R90: the tables of a reset core are those the construction procedure leaves, under both values of `LOG1`; `LOG[0]` is
left out, since it holds no value. -/
def Obligations.ResetTablesAreConstructed : Prop :=
  ∀ c : Config, (State.resetWith c).exp = constructedExp c.log1 ∧
    ∀ x : Byte, x ≠ 0 → logAt (State.resetWith c).log x = logAt (constructedLog c.log1) x

/-- R91: the facts (a) to (g) of the tables. For (c), iteration `i` of the construction writes `LOG` at the running `x`, and
these are the nonzero bytes. -/
def Obligations.TableFacts : Prop :=
  (∀ (l : Log1) (x : Byte), x ≠ 0 ↔ ∃ i < l.iterations, (buildFor i).x = x) ∧
  (∀ i, i < 512 → expTable.toList.getD i 0 = alphaPow i ∧ alphaPow i = expTable.toList.getD (i % 255) 0) ∧
  ((expTable.toList.take 255).Nodup ∧ ∀ x : Byte, x ≠ 0 ↔ x ∈ expTable.toList.take 255) ∧
  ([0, 1, 7, 8, 254, 255, 256, 510, 511].map fun i => expTable.toList.getD i 0) =
    [1, 2, 0x80, 0x1D, 0x8E, 1, 2, 1, 2] ∧
  ∀ l : Log1,
    ([2, 0x1D, 0x8E, 1].map (logAt (logTable l)) = [1, 8, 254, l.byte]) ∧
    (∀ x : Byte, x ≠ 0 → expTable.toList.getD (logAt (logTable l) x).toNat 0 = x) ∧
    (∀ i, 1 ≤ i → i ≤ 254 → (logAt (logTable l) (expTable.toList.getD i 0)).toNat = i) ∧
    logAt (logTable l) (expTable.toList.getD 0 0) = l.byte ∧
    (∀ x : Byte, x ≠ 0 → (logAt (logTable l) x).toNat ≤ (match l with | .ff => 255 | .zero => 254)) ∧
    ∃ x : Byte, x ≠ 0 ∧ (logAt (logTable l) x).toNat = (match l with | .ff => 255 | .zero => 254)

/-- `GFEXP idx` writes `EXP[idx]` to `RES` and sets `RES_V`, for all 512 indices (R92); with the constructed tables the value
is α^(idx mod 255) (R11, R91). -/
def Obligations.GfexpReadsAPowerOfAlpha : Prop :=
  FaultsOnReserved 0x02 0x00FFFE00 ∧
  ∀ idx : BitVec 9, HasWord (.gfexp idx) (0x02000000 ||| idx.setWidth 32) ∧
    ∀ s : State, ∃ v : Byte,
      exec (.gfexp idx) s = .next { s with res := v, status := { s.status with resV := true } } ∧
      v = s.exp.toList.getD idx.toNat 0 ∧ (s.TablesOk → v = alphaPow (idx.toNat % 255))

/-- `GFLOG 0` takes `NoValue`; `GFLOG a` for another `a` writes `LOG[a]` to `RES` and sets `RES_V` (R93); with the constructed
tables that is the logarithm of `a`, and `LOG1` for `a` = 1 (R11, R12, R91). -/
def Obligations.GflogReadsTheLogarithm : Prop :=
  FaultsOnReserved 0x03 0x0000FFFF ∧
  ∀ a : Byte, HasWord (.gflog a) (0x03000000 ||| a.setWidth 32 <<< 16) ∧
    ∀ s : State,
      (a = 0 → exec (.gflog a) s = .next { s with fault := .noValue, finfo := 0x03000000 }) ∧
      (a ≠ 0 → ∃ v : Byte,
        exec (.gflog a) s = .next { s with res := v, status := { s.status with resV := true } } ∧
        v = s.log.toList.getD a.toNat 0 ∧
        (s.TablesOk → alphaPow v.toNat = a ∧ (a = 1 → v = s.cfg.log1.byte) ∧ (a ≠ 1 → 1 ≤ v.toNat ∧ v.toNat ≤ 254)))

/-- R94, R95: `GFMUL a, b` writes 0 when an operand is 0 and `EXP[LOG[a] + LOG[b]]` otherwise, the sum not reduced, and sets
`RES_V`; `LOG[0]` is not read; with the constructed tables the value is the product in GF(2)[x]/(x^8+x^4+x^3+x^2+1), under
either value of `LOG1`. -/
def Obligations.GfmulIsTheFieldProduct : Prop :=
  FaultsOnReserved 0x04 0x000000FF ∧
  ∀ a b : Byte, HasWord (.gfmul a b) (0x04000000 ||| a.setWidth 32 <<< 16 ||| b.setWidth 32 <<< 8) ∧
    ∀ s : State, ∃ v : Byte,
      exec (.gfmul a b) s = .next { s with res := v, status := { s.status with resV := true } } ∧
      (a = 0 ∨ b = 0 → v = 0) ∧
      (a ≠ 0 → b ≠ 0 → v = s.exp.toList.getD ((s.log.toList.getD a.toNat 0).toNat + (s.log.toList.getD b.toNat 0).toNat) 0) ∧
      (∀ log' : Vector Byte 256, (∀ x : Byte, x ≠ 0 → logAt log' x = logAt s.log x) → gfMultiply s.exp log' a b = v) ∧
      (s.TablesOk → v = fieldMul a b)

/-- R96: the laws of `gfMultiply` on the constructed tables. -/
def Obligations.FieldMultiplicationLaws : Prop :=
  ∀ (l : Log1) (m : Byte → Byte → Byte), m = gfMultiply expTable (logTable l) →
    (∀ a, m a 0 = 0 ∧ m 0 a = 0 ∧ m a 1 = a ∧ m 1 a = a) ∧
    (∀ a b, m a b = m b a) ∧
    (∀ a b c, m (m a b) c = m a (m b c)) ∧
    (∀ a b c, m a (b ^^^ c) = m a b ^^^ m a c) ∧
    (∀ a, m a 2 = if a.getLsbD 7 then (a <<< 1) ^^^ 0x1D else a <<< 1) ∧
    (∀ a, a ≠ 0 → ∃ b, m a b = 1 ∧ ∀ b', m a b' = 1 → b' = b)

/-! ## Reed-Solomon Encoder -/

/-- `RSENC` without `DATA` takes `NoValue`; with it, it writes `ECC` and sets `ECC_V` (R111), and what it writes is the remainder
of d(x)·x^7 divided by g(x) (R110, as R112 derives). No phase is required. -/
def Obligations.RsencComputesTheRemainder : Prop :=
  HasWord .rsenc 0x13000000 ∧ FaultsOnReserved 0x13 0x00FFFFFF ∧
  ∀ s : State,
    (s.status.dataV = false → exec .rsenc s = .next { s with fault := .noValue, finfo := 0x13000000 }) ∧
    (s.status.dataV = true → ∃ c : Vector Byte 7,
      exec .rsenc s = .next { s with ecc := c, status := { s.status with eccV := true } } ∧
      (s.TablesOk → IsRemainder s.gen s.data c))

/-- The consequences R112 draws: an all-zero input gives an all-zero remainder; the map is linear over XOR; the input that is
zero but for a last byte of 1 gives `GEN`; and `LOG1` does not matter. -/
def Obligations.RsEncodeIsLinear : Prop :=
  ∀ (l : Log1) (g : Vector Byte 7) (f : Vector Byte 19 → Vector Byte 7), f = rsEncode expTable (logTable l) g →
    f (Vector.replicate 19 0) = Vector.replicate 7 0 ∧
    (∀ u v : Vector Byte 19, f (Vector.zipWith (· ^^^ ·) u v) = Vector.zipWith (· ^^^ ·) (f u) (f v)) ∧
    f ((Vector.replicate 19 0).set 18 1) = g ∧
    ∀ (l' : Log1) (u : Vector Byte 19), rsEncode expTable (logTable l') g u = f u

/-! ## Codeword Assembler -/

/-- R120: `TXCLR` empties the text and changes nothing else. -/
def Obligations.TxclrEmptiesTheText : Prop :=
  HasWord .txclr 0x10000000 ∧ FaultsOnReserved 0x10 0x00FFFFFF ∧
  ∀ s : State, exec .txclr s = .next { s with txt := [] } ∧ State.txn { s with txt := [] } = 0

/-- `TXPUSH imm` stores the code unit whole at index `TXN` and adds one to `TXN`, at every length of the text and for every `CW`;
from the 18th push on it can change no result (R121, R62). A word whose operand has a bit above the core's `CW` takes
`ReservedField` (log entry 3). -/
def Obligations.TxpushAppendsTheCodeUnit : Prop :=
  FaultsOnReserved 0x11 0x00FF0000 ∧
  (∀ (s : State) (imm : CodeUnit), 17 ≤ s.txt.length → assemble (s.txt ++ [imm]) = assemble s.txt) ∧
  (∀ imm : BitVec 16, HasWord (.txpush imm.toNat) (0x11000000 ||| imm.setWidth 32)) ∧
  ∀ (imm : CodeUnit) (s : State),
    (imm < 2 ^ s.cfg.cw → ∃ t : List CodeUnit, exec (.txpush imm) s = .next { s with txt := t } ∧
      t.length = s.txt.length + 1 ∧ t[s.txt.length]? = some imm ∧ t.take s.txt.length = s.txt) ∧
    (2 ^ s.cfg.cw ≤ imm →
      exec (.txpush imm) s = .next { s with fault := .reservedField, finfo := encode (.txpush imm) })

/-- R123, by the byte layout of R71: `ASSEMBLE` writes all 19 data codewords of the text, sets `DATA_V` and clears `ECC_V`. -/
def Obligations.AssembleLaysOutTheCodewords : Prop :=
  HasWord .assemble 0x12000000 ∧ FaultsOnReserved 0x12 0x00FFFFFF ∧
  ∀ s : State, ∃ d : Vector Byte 19,
    exec .assemble s = .next { s with data := d, status := { s.status with dataV := true, eccV := false } } ∧
    ∀ n, n < 19 → (d.toList.getD n 0).toNat = layoutByte (payloadValues s.txt) n

/-- R124: a text assembles as its first 17 code units do, a longer text counts 17, and no fault and no flag tells. -/
def Obligations.OversizedTextIsTruncatedSilently : Prop :=
  ∀ s : State, 17 ≤ s.txt.length →
    assemble s.txt = assemble (s.txt.take 17) ∧
    ∃ t, exec .assemble s = .next t ∧ t.data = assemble (s.txt.take 17) ∧ t.fault = s.fault ∧
      exec .assemble { s with txt := s.txt.take 17 } = .next { t with txt := s.txt.take 17 } ∧
      (t.data.toList.getD 0 0).toNat * 16 % 256 + (t.data.toList.getD 1 0).toNat / 16 = 17

/-- R125: the low eight bits of the first 17 code units are all that is read of a text, whatever the width of a code unit:
two texts whose code units agree modulo 256 in the first 17 positions assemble identically; and the empty text gives the
sequence the rule lists. -/
def Obligations.OnlyTheLowBytesAreAssembled : Prop :=
  (∀ t u : List CodeUnit, payloadValues t = payloadValues u → assemble t = assemble u) ∧
  (assemble ([] : List CodeUnit)).toList =
    [0x40, 0x00, 0xEC, 0x11, 0xEC, 0x11, 0xEC, 0x11, 0xEC, 0x11, 0xEC, 0x11, 0xEC, 0x11, 0xEC, 0x11, 0xEC, 0x11, 0xEC]

/-- The commands of `TXSTR` (R66), sent to a core of any `CW` that is not halted, leave exactly the string in `TXT` (R242). -/
def Obligations.SendingATextLoadsIt : Prop :=
  ∀ (s : State) (u : List CodeUnit) (rest : List HostEvent), s.fault = .none → (∀ x ∈ u, x < 2 ^ s.cfg.cw) →
    s.port = sent s.cfg (expandTxstr u) ++ rest →
    Host.Core.run Sys2Proof.core (u.length + 1) s = .next ({ s with port := rest, txt := u } : State)

/-! ## Matrix Layout Engine -/

/-- R141: `GRIDCLR` makes all 441 cells `Unset`, sets `PHASE` to 0 and clears `REND_V`, in every phase; `RSV` is left as it
is. No other command leaves phase 7. -/
def Obligations.GridclrAllocatesTheGrid : Prop :=
  HasWord .gridclr 0x20000000 ∧ FaultsOnReserved 0x20 0x00FFFFFF ∧
  (∀ s : State, ∃ g : Grid Cell,
    exec .gridclr s = .next { s with grid := g, status := { s.status with phase := 0, rendV := false } } ∧
    ∀ p, g.look p = .unset) ∧
  ∀ (i : Instr) (s t : State), s.status.phase = 7 → exec i s = .next t → t.status.phase ≠ 7 → i = .gridclr

/-- R143, with the rings of R142: `FINDER` in phase 0 writes the three 8×8 blocks, rings 2 and 4 `Light` and the rest `Dark`,
and no other cell; in another phase it takes `PhaseOrder`. -/
def Obligations.FinderDrawsThreePatterns : Prop :=
  HasWord .finder 0x21000000 ∧ FaultsOnReserved 0x21 0x00FFFFFF ∧
  ∀ s : State,
    (s.status.phase ≠ 0 → exec .finder s = .next { s with fault := .phaseOrder, finfo := 0x21000000 }) ∧
    (s.status.phase = 0 → ∃ g : Grid Cell,
      exec .finder s = .next { s with grid := g, status := { s.status with phase := 1 } } ∧
      ∀ p, g.look p = if p.isFinder then (if finderRing p = 2 ∨ finderRing p = 4 then .light else .dark) else s.grid.look p)

/-- R144: `TIMING` in phase 1 writes cells 8 to 12 of row 6 and of column 6, `Dark` at the even indices, and no other cell; in
another phase it takes `PhaseOrder`. -/
def Obligations.TimingAlternates : Prop :=
  HasWord .timing 0x22000000 ∧ FaultsOnReserved 0x22 0x00FFFFFF ∧
  ∀ s : State,
    (s.status.phase ≠ 1 → exec .timing s = .next { s with fault := .phaseOrder, finfo := 0x22000000 }) ∧
    (s.status.phase = 1 → ∃ g : Grid Cell,
      exec .timing s = .next { s with grid := g, status := { s.status with phase := 2 } } ∧
      (∀ i : Fin 21, 8 ≤ i.val → i.val ≤ 12 →
        g.look ⟨6, i⟩ = (if i.val % 2 = 0 then .dark else .light) ∧
        g.look ⟨i, 6⟩ = (if i.val % 2 = 0 then .dark else .light)) ∧
      ∀ p : Pos, p.isTiming = false → g.look p = s.grid.look p)

/-- R145: `DARKMOD` in phase 2 makes cell (13, 8) `Dark` and no other; in another phase it takes `PhaseOrder`. -/
def Obligations.DarkmodSetsOneCell : Prop :=
  HasWord .darkmod 0x23000000 ∧ FaultsOnReserved 0x23 0x00FFFFFF ∧
  ∀ s : State,
    (s.status.phase ≠ 2 → exec .darkmod s = .next { s with fault := .phaseOrder, finfo := 0x23000000 }) ∧
    (s.status.phase = 2 → ∃ g : Grid Cell,
      exec .darkmod s = .next { s with grid := g, status := { s.status with phase := 3 } } ∧
      g.look ⟨13, 8⟩ = .dark ∧ ∀ p : Pos, p ≠ ⟨13, 8⟩ → g.look p = s.grid.look p)

/-- R150: `RESERVE` in phase 3 latches the parameter `RESERVED` at every cell and leaves `GRID`; in another phase it takes
`PhaseOrder`. -/
def Obligations.ReserveLatchesThePredicate : Prop :=
  HasWord .reserve 0x24000000 ∧ FaultsOnReserved 0x24 0x00FFFFFF ∧
  (∀ s : State,
    (s.status.phase ≠ 3 → exec .reserve s = .next { s with fault := .phaseOrder, finfo := 0x24000000 }) ∧
    (s.status.phase = 3 → ∃ r : Grid Bool,
      exec .reserve s = .next { s with rsv := r, status := { s.status with phase := 4 } } ∧
      ∀ p, r.look p = s.cfg.reservedAt p)) ∧
  ([⟨8, 8⟩, ⟨9, 9⟩, ⟨8, 10⟩, ⟨20, 20⟩] : List Pos).map configDoc.reservedAt = [true, false, true, false]

/-- R151, R152: the default predicate leaves free exactly the three regions the rule lists, 186 cells; the named alternative
leaves 208, and differs from it on the 22 cells listed. -/
def Obligations.ReservedPredicatesByRegion : Prop :=
  (∀ p : Pos, configDoc.reservedAt p = false ↔
    ((9 ≤ p.row.val ∧ p.row.val ≤ 11 ∧ (p.col.val ≤ 5 ∨ p.col.val = 7)) ∨ (9 ≤ p.row.val ∧ 9 ≤ p.col.val) ∨
      ((p.row.val ≤ 5 ∨ p.row.val = 7) ∧ 9 ≤ p.col.val ∧ p.col.val ≤ 11))) ∧
  Pos.all.countP configDoc.reservedAt = 255 ∧ Pos.all.countP configStd.reservedAt = 233 ∧
  Pos.all.filter (fun p => configDoc.reservedAt p != configStd.reservedAt p) =
    [⟨0, 12⟩, ⟨1, 12⟩, ⟨2, 12⟩, ⟨3, 12⟩, ⟨4, 12⟩, ⟨5, 12⟩, ⟨7, 12⟩, ⟨8, 9⟩, ⟨8, 10⟩, ⟨8, 11⟩, ⟨8, 12⟩, ⟨9, 8⟩, ⟨10, 8⟩,
      ⟨11, 8⟩, ⟨12, 0⟩, ⟨12, 1⟩, ⟨12, 2⟩, ⟨12, 3⟩, ⟨12, 4⟩, ⟨12, 5⟩, ⟨12, 7⟩, ⟨12, 8⟩] ∧
  ∀ p : Pos, configStd.reservedAt p = true → configDoc.reservedAt p = true

/-- R154: the walk visits 420 cells, every cell but those of column 6, in the order of the ten column pairs from the right,
upward in the first pair and in every second one after it, the right column first in each row. -/
def Obligations.WalkVisitsInOrder : Prop :=
  walk.map visitNumber = List.range 420 ∧ (∀ p : Pos, p ∈ walk ↔ p.col ≠ 6) ∧
  ∀ p ∈ walk, (pairNumber p, rightColumn p) ∈
    [(0, 20), (1, 18), (2, 16), (3, 14), (4, 12), (5, 10), (6, 8), (7, 5), (8, 3), (9, 1)]

/-- R155: `PLACE` checks `PHASE`, then that `DATA` and `ECC` hold values; then the cell that is the k-th of the walk that is
not reserved takes stream bit `k`, XORed with 1 where row plus column is even, 1 as `Dark`; every other cell keeps its
value. -/
def Obligations.PlaceWritesTheStream : Prop :=
  HasWord .place 0x25000000 ∧ FaultsOnReserved 0x25 0x00FFFFFF ∧
  ∀ s : State,
    (s.status.phase ≠ 4 → exec .place s = .next { s with fault := .phaseOrder, finfo := 0x25000000 }) ∧
    (s.status.phase = 4 → s.status.dataV = false ∨ s.status.eccV = false →
      exec .place s = .next { s with fault := .noValue, finfo := 0x25000000 }) ∧
    (s.status.phase = 4 → s.status.dataV = true → s.status.eccV = true → ∃ g : Grid Cell,
      exec .place s = .next { s with grid := g, status := { s.status with phase := 5 } } ∧
      ∀ p, g.look p =
        if takesBit s.rsv p then
          (if (codewordBit s.data s.ecc (streamPosition s.rsv p) ^^ decide ((p.row.val + p.col.val) % 2 = 0)) then .dark
            else .light)
        else s.grid.look p)

/-- R156: `FMTWRITE` checks `PHASE`, then that `FMT` holds a value; then bit 14 - k of `FMT` is written to position `k` of both
sequences, 1 as `Dark`, when the 30 cells are distinct; no other cell is written. -/
def Obligations.FmtwriteWritesBothCopies : Prop :=
  HasWord .fmtwrite 0x26000000 ∧ FaultsOnReserved 0x26 0x00FFFFFF ∧
  ∀ s : State,
    (s.status.phase ≠ 5 → exec .fmtwrite s = .next { s with fault := .phaseOrder, finfo := 0x26000000 }) ∧
    (s.status.phase = 5 → s.status.fmtV = false →
      exec .fmtwrite s = .next { s with fault := .noValue, finfo := 0x26000000 }) ∧
    (s.status.phase = 5 → s.status.fmtV = true → ∃ g : Grid Cell,
      exec .fmtwrite s = .next { s with grid := g, status := { s.status with phase := 6 } } ∧
      (s.cfg.formatCells.Nodup → ∀ k : Fin 15,
        g.look s.cfg.fmtA[k] = (if s.fmt.getLsbD (14 - k.val) then .dark else .light) ∧
        g.look s.cfg.fmtB[k] = (if s.fmt.getLsbD (14 - k.val) then .dark else .light)) ∧
      ∀ p, p ∉ s.cfg.formatCells → g.look p = s.grid.look p)

/-- R157: `FINALIZE` in phase 6 makes every `Unset` cell `Light` and leaves the others; in another phase it takes
`PhaseOrder`. -/
def Obligations.FinalizeLightsUnsetCells : Prop :=
  HasWord .finalize 0x27000000 ∧ FaultsOnReserved 0x27 0x00FFFFFF ∧
  ∀ s : State,
    (s.status.phase ≠ 6 → exec .finalize s = .next { s with fault := .phaseOrder, finfo := 0x27000000 }) ∧
    (s.status.phase = 6 → ∃ g : Grid Cell,
      exec .finalize s = .next { s with grid := g, status := { s.status with phase := 7 } } ∧
      ∀ p, (s.grid.look p = .unset → g.look p = .light) ∧ (s.grid.look p ≠ .unset → g.look p = s.grid.look p))

/-- R157: when `FINALIZE` is due, exactly the 22 cells on which the two predicates differ are still `Unset` under the default
parameters, and none is under the alternatives. -/
def Obligations.LeftoverCellsBeforeFinalization : Prop :=
  ∀ s : State, s.GridOk → s.status.phase = 6 →
    (s.cfg = configDoc → ∀ p : Pos, s.grid.look p = .unset ↔ p ∈ ([⟨0, 12⟩, ⟨1, 12⟩, ⟨2, 12⟩, ⟨3, 12⟩, ⟨4, 12⟩, ⟨5, 12⟩,
      ⟨7, 12⟩, ⟨8, 9⟩, ⟨8, 10⟩, ⟨8, 11⟩, ⟨8, 12⟩, ⟨9, 8⟩, ⟨10, 8⟩, ⟨11, 8⟩, ⟨12, 0⟩, ⟨12, 1⟩, ⟨12, 2⟩, ⟨12, 3⟩, ⟨12, 4⟩,
      ⟨12, 5⟩, ⟨12, 7⟩, ⟨12, 8⟩] : List Pos)) ∧
    (s.cfg = configStd → ∀ p : Pos, s.grid.look p ≠ .unset)

/-- R140: each layout command in its phase, and with the values it also requires, completes and sets the next phase; in any
other phase it takes `PhaseOrder` and changes nothing else; `GRIDCLR` and `ENCODE` are legal in every phase. -/
def Obligations.LayoutPhasesRunInOrder : Prop :=
  (∀ s : State, ∀ r ∈ ([(.finder, 0, 1), (.timing, 1, 2), (.darkmod, 2, 3), (.reserve, 3, 4), (.place, 4, 5), (.fmtwrite, 5, 6),
      (.finalize, 6, 7), (.render, 7, 7)] : List (Instr × BitVec 3 × BitVec 3)),
    (s.status.phase ≠ r.2.1 → exec r.1 s = .next { s with fault := .phaseOrder, finfo := encode r.1 }) ∧
    (s.status.phase = r.2.1 → (r.1 = .place → s.status.dataV = true ∧ s.status.eccV = true) →
      (r.1 = .fmtwrite → s.status.fmtV = true) →
      ∃ t, exec r.1 s = .next t ∧ t.fault = s.fault ∧ t.status.phase = r.2.2)) ∧
  ∀ s : State, (∃ t, exec .gridclr s = .next t ∧ t.fault = s.fault ∧ t.status.phase = 0) ∧
    ∃ t, exec .encode s = .next t ∧ t.fault = s.fault ∧ t.status.phase = 7

/-- R158: the cells the four writing commands write, 192, 10, 1 and 30 of them, are pairwise distinct, all are reserved under
both predicates, and under the alternative they are all the reserved cells; the cells `PLACE` writes are distinct from them and
from each other. -/
def Obligations.WrittenCellsAreDisjoint : Prop :=
  ∀ ws, ws = (finderWrites ++ timingWrites ++ darkmodWrites ++ fmtWrites fmtA fmtB 0).map Prod.fst →
    [finderWrites.length, timingWrites.length, darkmodWrites.length, (fmtWrites fmtA fmtB 0).length] = [192, 10, 1, 30] ∧
    ws.Nodup ∧ (∀ p ∈ ws, configDoc.reservedAt p = true) ∧ (∀ p, configStd.reservedAt p = true ↔ p ∈ ws) ∧
    ∀ r ∈ [configDoc.reserved, configStd.reserved], ∀ bit : Nat → Bool,
      ((placeWrites r bit).map Prod.fst).Nodup ∧ ∀ p ∈ (placeWrites r bit).map Prod.fst, p ∉ ws

/-- R159: in phase 7 the three corners hold a finder pattern, row 6 and column 6 alternate from `Dark` at index 8, cell (13, 8)
is `Dark` and no cell is `Unset`. It holds of every state with the grid invariant and a well-formed configuration. -/
def Obligations.FinalizedGridHasItsPatterns : Prop :=
  ∀ s : State, s.cfg.wellFormed = true → s.GridOk → s.status.phase = 7 →
    (∀ p : Pos, (p.row ≤ 6 ∧ p.col ≤ 6) ∨ (p.row ≤ 6 ∧ 14 ≤ p.col) ∨ (14 ≤ p.row ∧ p.col ≤ 6) →
      s.grid.look p = (if finderRing p = 2 then .light else .dark)) ∧
    (∀ i : Fin 21, 8 ≤ i.val → i.val ≤ 12 →
      s.grid.look ⟨6, i⟩ = (if i.val % 2 = 0 then .dark else .light) ∧
      s.grid.look ⟨i, 6⟩ = (if i.val % 2 = 0 then .dark else .light)) ∧
    s.grid.look ⟨13, 8⟩ = .dark ∧ ∀ p, s.grid.look p ≠ .unset

/-- Once finalized the grid is immutable (R157): no command but `GRIDCLR` and `ENCODE` changes a cell, the latch or the
phase. -/
def Obligations.FinalizedGridIsImmutable : Prop :=
  ∀ (i : Instr) (s t : State), s.status.phase = 7 → exec i s = .next t → i ≠ .gridclr → i ≠ .encode →
    t.grid = s.grid ∧ t.rsv = s.rsv ∧ t.status.phase = 7

/-! ## Format Encoder -/

/-- R181, R180: `FMTENC ec, mask` writes to `FMT` the word whose XOR with 0x5412 has `(ec << 3) | mask` in its top five bits
and is a multiple of the BCH generator, and sets `FMT_V`, for all 32 pairs and in every phase. -/
def Obligations.FmtencWritesABchCodeword : Prop :=
  FaultsOnReserved 0x28 0x00FFFFE0 ∧
  ∀ (ec : BitVec 2) (mask : BitVec 3), HasWord (.fmtenc ec mask) (0x28000000 ||| ec.setWidth 32 <<< 3 ||| mask.setWidth 32) ∧
    ∀ s : State, ∃ f : BitVec 15,
      exec (.fmtenc ec mask) s = .next { s with fmt := f, status := { s.status with fmtV := true } } ∧
      (f ^^^ 0x5412).toNat / 2 ^ 10 = ec.toNat * 8 + mask.toNat ∧ ∃ q : BitVec 5, f ^^^ 0x5412 = bchMultiple q

/-! ## Renderer -/

/-- `SETHINT imm` writes `HINT` and changes nothing else, for every `HINT_W`; every value up to 28 has the effect of 28 on
`RENDER` (R190, R15). A word whose operand has a bit above the core's `HINT_W` takes `ReservedField`, which is
the model's choice (log entry 3). -/
def Obligations.SethintWritesTheHint : Prop :=
  FaultsOnReserved 0x30 0x00FF0000 ∧
  (∀ imm : BitVec 16, HasWord (.sethint imm.toNat) (0x30000000 ||| imm.setWidth 32)) ∧
  (∀ (imm : Nat) (s : State),
    (imm < 2 ^ s.cfg.hintW → exec (.sethint imm) s = .next { s with hint := imm }) ∧
    (2 ^ s.cfg.hintW ≤ imm →
      exec (.sethint imm) s = .next { s with fault := .reservedField, finfo := encode (.sethint imm) })) ∧
  ∀ (h : Nat) (s t : State), h ≤ 28 → exec .render { s with hint := 28 } = .next t →
    exec .render { s with hint := h } = .next { t with hint := h }

/-- R192, R191: `RENDER` in phase 7 writes the module side, the nearest integer to max(28, hint)/29; the canvas side, 29
modules; and one rectangle for each `Dark` cell (as a set: the list's order is decision D14), none in the quiet zone;
`GRID` and `PHASE` stay. In another phase it takes `PhaseOrder`. -/
def Obligations.RenderMapsTheDarkCells : Prop :=
  HasWord .render 0x31000000 ∧ FaultsOnReserved 0x31 0x00FFFFFF ∧
  ∀ s : State,
    (s.status.phase ≠ 7 → exec .render s = .next { s with fault := .phaseOrder, finfo := 0x31000000 }) ∧
    (s.status.phase = 7 → ∃ (m c : Nat) (n : BitVec 9) (r : List Rect),
      exec .render s = .next
        { s with modpx := m, canvas := c, nrect := n, rect := r, status := { s.status with rendV := true } } ∧
      2 * (29 * m) < 2 * max 28 s.hint + 29 ∧ 2 * max 28 s.hint < 2 * (29 * m) + 29 ∧ 1 ≤ m ∧ c = 29 * m ∧
      n.toNat = Pos.all.countP (fun p => s.grid.look p = .dark) ∧ r.length = n.toNat ∧ r.Nodup ∧
      (∀ q : Rect, q ∈ r ↔ ∃ p : Pos, s.grid.look p = .dark ∧ q.x = (p.col.val + 4) * m ∧ q.y = (p.row.val + 4) * m ∧
        q.width = m ∧ q.height = m) ∧
      ∀ q ∈ r, 4 * m ≤ q.x ∧ q.x ≤ 24 * m ∧ 4 * m ≤ q.y ∧ q.y ≤ 24 * m)

/-- Rendering is idempotent, and in every state with the grid invariant it counts at least the 106 `Dark` cells of the function
patterns and at most 441 (R192). On a core whose `HINT_W` is 16 the results have the widths of R22. -/
def Obligations.RenderIsIdempotentAndBounded : Prop :=
  (∀ s t : State, s.status.phase = 7 → exec .render s = .next t → exec .render t = .next t) ∧
  ∀ s t : State, s.cfg.wellFormed = true → s.GridOk → s.status.phase = 7 → exec .render s = .next t →
    106 ≤ t.nrect.toNat ∧ t.nrect.toNat ≤ 441 ∧
    (s.ResultsOk → s.cfg.hintW = 16 → 1 ≤ t.modpx ∧ t.modpx ≤ 2260 ∧ 29 ≤ t.canvas ∧ t.canvas ≤ 65540 ∧
      ∀ q ∈ t.rect, q.x < 2 ^ 16 ∧ q.y < 2 ^ 16 ∧ q.width < 2 ^ 16 ∧ q.height < 2 ^ 16)

/-- The rectangle list is row-major: row ascending, then column ascending. This rests on decision D14 of the spec (R191). -/
def Obligations.RectanglesAreRowMajor : Prop :=
  ∀ (s t : State), s.status.phase = 7 → exec .render s = .next t →
    t.rect.Pairwise fun a b => a.y < b.y ∨ (a.y = b.y ∧ a.x < b.x)

/-! ## Control -/

/-- R200: `NOP` is the all-zero word and changes no state. -/
def Obligations.NopChangesNothing : Prop :=
  HasWord .nop 0x00000000 ∧ FaultsOnReserved 0x00 0x00FFFFFF ∧ ∀ s : State, exec .nop s = .next s

/-- R201: the effect of `ENCODE` is exactly that of the twelve commands sent one after the other, from every state of a core
that is not halted, in every phase; it raises no fault, sets the four flags and `PHASE` 7, and leaves `RES` and `RES_V`. -/
def Obligations.EncodeIsItsTwelveCommands : Prop :=
  HasWord .encode 0x3F000000 ∧ FaultsOnReserved 0x3F 0x00FFFFFF ∧
  (∀ (s : State) (rest : List HostEvent), s.fault = .none →
    Host.Core.run Sys2Proof.core 12 ({ s with port := sent s.cfg (encodeCommands s.cfg.ecL) ++ rest } : State) =
      step { s with port := .command 0x3F000000 :: rest }) ∧
  ∀ s : State, ∃ t, exec .encode s = .next t ∧
    t.status = { dataV := true, eccV := true, fmtV := true, rendV := true, resV := s.status.resV, phase := 7 } ∧
    t = { s with data := t.data, ecc := t.ecc, grid := t.grid, rsv := t.rsv, fmt := t.fmt, modpx := t.modpx,
                 canvas := t.canvas, nrect := t.nrect, rect := t.rect, status := t.status }

/-- The result of `ENCODE` depends on the first 17 code units modulo 256 and on max(28, `HINT`) only, for cores with the same
tables and parameters (R3, R201). -/
def Obligations.EncodeDependsOnPayloadAndHint : Prop :=
  ∀ s t s' t' : State, s.exp = t.exp → s.log = t.log → s.gen = t.gen → s.cfg = t.cfg →
    payloadValues s.txt = payloadValues t.txt → max 28 s.hint = max 28 t.hint →
    exec .encode s = .next s' → exec .encode t = .next t' →
    s'.data = t'.data ∧ s'.ecc = t'.ecc ∧ s'.grid = t'.grid ∧ s'.rsv = t'.rsv ∧ s'.fmt = t'.fmt ∧ s'.modpx = t'.modpx ∧
      s'.canvas = t'.canvas ∧ s'.nrect = t'.nrect ∧ s'.rect = t'.rect

/-- `ENCODE` twice leaves every element as `ENCODE` once does (R3, R159). -/
def Obligations.EncodeTwiceIsEncodeOnce : Prop :=
  ∀ s t : State, exec .encode s = .next t → exec .encode t = .next t

/-! ## The whole machine -/

/-- The constant tables are never written: every step, a reset included, keeps their contents (R11 to R13, R41). It keeps the
parameters too, which is the model's choice (log entries 2 and 8). -/
def Obligations.StepKeepsTheTables : Prop :=
  ∀ s t : State, s.TablesOk → step s = .next t → t.TablesOk ∧ t.cfg = s.cfg

/-- Every step keeps the widths of the inputs (R14, R15) and what the validity flags promise (R16, R17, R21, R22, R24): `ECC`
valid means computed from the current `DATA`, valid rectangles mean those of the finalized grid. -/
def Obligations.StepKeepsTheResults : Prop := ∀ s t : State, s.ResultsOk → step s = .next t → t.ResultsOk

/-- Every step keeps the grid what its phase says it is (R24, R158, R159), on a core with a well-formed configuration. -/
def Obligations.StepKeepsTheGrid : Prop :=
  ∀ s t : State, s.cfg.wellFormed = true → s.GridOk → step s = .next t → t.GridOk

/-- What stands in the field of an element that holds no value (log entry 5) is never observed: two states that differ only there
take steps to states that differ only there, since a command that must read such an element faults (R27). That every host
read of the two gives the same is the model's choice: R27 and R12 let such a read return anything, and the model draws it
from the read alone (log entry 6). -/
def Obligations.NoValueIsNeverObserved : Prop :=
  ∀ s t : State, s.SameValues t →
    (∀ s', step s = .next s' → ∃ t', step t = .next t' ∧ s'.SameValues t') ∧
    ∀ sp index draw, hostRead s sp index draw = hostRead t sp index draw
end

