-- ==== Sys2Proof/Laws/Decode.lean ====
section
/-! SUPPORT. The opcode map read in both directions, and all that decoding a word can do. -/

namespace Sys2Proof

@[simp] theorem Mnemonic.ofOpcode?_opcode (m : Mnemonic) : Mnemonic.ofOpcode? m.opcode = some m := by
  cases m <;> decide

/-- A listed opcode is that of its command. -/
theorem Mnemonic.opcode_of_ofOpcode? {op : BitVec 8} {m : Mnemonic} (h : Mnemonic.ofOpcode? op = some m) :
    m.opcode = op := by
  simpa using List.find?_some h

theorem decode_of_unlisted {w : Word} (h : Mnemonic.ofOpcode? (opField w) = none) : decode w = .error .illegalOpcode := by
  simp [decode, h]

theorem decode_of_reserved {w : Word} {m : Mnemonic} (h : Mnemonic.ofOpcode? (opField w) = some m)
    (hr : w &&& m.format.reservedBits ≠ 0) : decode w = .error .reservedField := by
  simp only [decode, h, if_neg hr]

theorem decode_of_legal {w : Word} {m : Mnemonic} (h : Mnemonic.ofOpcode? (opField w) = some m)
    (hr : w &&& m.format.reservedBits = 0) : decode w = .ok (instrOf w m) := by
  simp only [decode, h, if_pos hr]

/-- All that decoding to a command means: a listed opcode, clear reserved bits, and the command of that name with the word's
operands. -/
theorem decode_ok_cases {w : Word} {i : Instr} (h : decode w = .ok i) :
    ∃ m : Mnemonic, m.opcode = opField w ∧ w &&& m.format.reservedBits = 0 ∧ i = instrOf w m := by
  unfold decode at h
  split at h
  · cases h
  next m hm =>
    split at h
    next hr => cases h; exact ⟨m, Mnemonic.opcode_of_ofOpcode? hm, hr, rfl⟩
    · cases h

/-- All that a refused word can be: an unlisted opcode, or a listed one with a reserved bit set. -/
theorem decode_error_cases {w : Word} {e : DecodeError} (h : decode w = .error e) :
    (e = .illegalOpcode ∧ Mnemonic.ofOpcode? (opField w) = none) ∨
    (e = .reservedField ∧ ∃ m : Mnemonic, m.opcode = opField w ∧ w &&& m.format.reservedBits ≠ 0) := by
  unfold decode at h
  split at h
  next hm => cases h; exact .inl ⟨rfl, hm⟩
  next m hm =>
    split at h
    · cases h
    next hr => cases h; exact .inr ⟨rfl, m, Mnemonic.opcode_of_ofOpcode? hm, hr⟩

end Sys2Proof
end

