-- ==== Sys2Proof/Laws/Grid.lean ====
section
/-! SUPPORT. The 21×21 arrays: what is read after a write, a run of writes, a fill and a tabulation, and that two arrays with the
same elements are equal. -/

namespace Sys2Proof

variable {α : Type}

@[simp] theorem Grid.look_tabulate (f : Pos → α) (p : Pos) : (Grid.tabulate f).look p = f p := by
  simp [Grid.look, Grid.tabulate]

@[simp] theorem Grid.look_fill (v : α) (p : Pos) : (Grid.fill v).look p = v := by
  simp [Grid.look, Grid.fill]

@[simp] theorem Grid.look_put_same (g : Grid α) (p : Pos) (v : α) : (g.put p v).look p = v := by
  simp [Grid.look, Grid.put]

theorem Grid.look_put_of_ne (g : Grid α) {p q : Pos} (v : α) (h : p ≠ q) : (g.put p v).look q = g.look q := by
  rcases p with ⟨pr, pc⟩
  rcases q with ⟨qr, qc⟩
  by_cases hr : pr = qr
  · subst hr
    have hc : pc.val ≠ qc.val := fun e => h (by rw [Fin.ext e])
    simp [Grid.look, Grid.put, hc]
  · have hr' : pr.val ≠ qr.val := fun e => hr (Fin.ext e)
    simp [Grid.look, Grid.put, hr']

theorem Grid.look_put (g : Grid α) (p q : Pos) (v : α) : (g.put p v).look q = if p = q then v else g.look q := by
  by_cases h : p = q
  · subst h; simp
  · simp [h, Grid.look_put_of_ne]

@[simp] theorem Grid.write_nil (g : Grid α) : g.write [] = g := rfl

@[simp] theorem Grid.write_cons (g : Grid α) (w : Pos × α) (ws : List (Pos × α)) :
    g.write (w :: ws) = (g.put w.1 w.2).write ws := rfl

theorem Grid.write_append (g : Grid α) (ws vs : List (Pos × α)) : g.write (ws ++ vs) = (g.write ws).write vs := by
  simp [Grid.write, List.foldl_append]

/-- A cell that no write of the run names keeps its element. -/
theorem Grid.look_write_of_not_mem (ws : List (Pos × α)) (g : Grid α) {p : Pos} (h : p ∉ ws.map Prod.fst) :
    (g.write ws).look p = g.look p := by
  induction ws generalizing g with
  | nil => rfl
  | cons w ws ih =>
    simp only [List.map_cons, List.mem_cons, not_or] at h
    rw [Grid.write_cons, ih _ h.2, Grid.look_put_of_ne _ _ (Ne.symm h.1)]

/-- A run that names each cell at most once leaves each write's element in its cell. -/
theorem Grid.look_write_of_mem (ws : List (Pos × α)) (g : Grid α) (hd : (ws.map Prod.fst).Nodup) {p : Pos} {v : α}
    (h : (p, v) ∈ ws) : (g.write ws).look p = v := by
  induction ws generalizing g with
  | nil => simp at h
  | cons w ws ih =>
    simp only [List.map_cons, List.nodup_cons] at hd
    rcases List.mem_cons.mp h with rfl | h'
    · rw [Grid.write_cons, Grid.look_write_of_not_mem ws _ hd.1, Grid.look_put_same]
    · rw [Grid.write_cons, ih _ hd.2 h']

/-- Two arrays with the same element at every cell are equal. -/
theorem Grid.ext_look {g h : Grid α} (e : ∀ p, g.look p = h.look p) : g = h := by
  refine Vector.ext fun r hr => Vector.ext fun c hc => ?_
  simpa [Grid.look] using e ⟨⟨r, hr⟩, ⟨c, hc⟩⟩

/-- Every cell is in the row-major list. -/
@[simp] theorem Pos.mem_all (p : Pos) : p ∈ Pos.all := by
  rcases p with ⟨r, c⟩
  simp [Pos.all]

end Sys2Proof
end

