-- ==== Sys2Proof/Laws/State.lean ====
section
/-! SUPPORT. What each named update of the state and of `STATUS` leaves in each field: one lemma per field per update, so that
no proof unfolds a record update. -/

namespace Sys2Proof.Machine

/-! ## `STATUS` -/

@[simp] theorem Status.assembled_dataV (f : Status) : (f.assembled).dataV = true := rfl
@[simp] theorem Status.assembled_eccV (f : Status) : (f.assembled).eccV = false := rfl
@[simp] theorem Status.assembled_fmtV (f : Status) : (f.assembled).fmtV = f.fmtV := rfl
@[simp] theorem Status.assembled_rendV (f : Status) : (f.assembled).rendV = f.rendV := rfl
@[simp] theorem Status.assembled_resV (f : Status) : (f.assembled).resV = f.resV := rfl
@[simp] theorem Status.assembled_phase (f : Status) : (f.assembled).phase = f.phase := rfl

@[simp] theorem Status.eccDone_dataV (f : Status) : (f.eccDone).dataV = f.dataV := rfl
@[simp] theorem Status.eccDone_eccV (f : Status) : (f.eccDone).eccV = true := rfl
@[simp] theorem Status.eccDone_fmtV (f : Status) : (f.eccDone).fmtV = f.fmtV := rfl
@[simp] theorem Status.eccDone_rendV (f : Status) : (f.eccDone).rendV = f.rendV := rfl
@[simp] theorem Status.eccDone_resV (f : Status) : (f.eccDone).resV = f.resV := rfl
@[simp] theorem Status.eccDone_phase (f : Status) : (f.eccDone).phase = f.phase := rfl

@[simp] theorem Status.fmtDone_dataV (f : Status) : (f.fmtDone).dataV = f.dataV := rfl
@[simp] theorem Status.fmtDone_eccV (f : Status) : (f.fmtDone).eccV = f.eccV := rfl
@[simp] theorem Status.fmtDone_fmtV (f : Status) : (f.fmtDone).fmtV = true := rfl
@[simp] theorem Status.fmtDone_rendV (f : Status) : (f.fmtDone).rendV = f.rendV := rfl
@[simp] theorem Status.fmtDone_resV (f : Status) : (f.fmtDone).resV = f.resV := rfl
@[simp] theorem Status.fmtDone_phase (f : Status) : (f.fmtDone).phase = f.phase := rfl

@[simp] theorem Status.rendered_dataV (f : Status) : (f.rendered).dataV = f.dataV := rfl
@[simp] theorem Status.rendered_eccV (f : Status) : (f.rendered).eccV = f.eccV := rfl
@[simp] theorem Status.rendered_fmtV (f : Status) : (f.rendered).fmtV = f.fmtV := rfl
@[simp] theorem Status.rendered_rendV (f : Status) : (f.rendered).rendV = true := rfl
@[simp] theorem Status.rendered_resV (f : Status) : (f.rendered).resV = f.resV := rfl
@[simp] theorem Status.rendered_phase (f : Status) : (f.rendered).phase = f.phase := rfl

@[simp] theorem Status.resDone_dataV (f : Status) : (f.resDone).dataV = f.dataV := rfl
@[simp] theorem Status.resDone_eccV (f : Status) : (f.resDone).eccV = f.eccV := rfl
@[simp] theorem Status.resDone_fmtV (f : Status) : (f.resDone).fmtV = f.fmtV := rfl
@[simp] theorem Status.resDone_rendV (f : Status) : (f.resDone).rendV = f.rendV := rfl
@[simp] theorem Status.resDone_resV (f : Status) : (f.resDone).resV = true := rfl
@[simp] theorem Status.resDone_phase (f : Status) : (f.resDone).phase = f.phase := rfl

@[simp] theorem Status.gridCleared_dataV (f : Status) : (f.gridCleared).dataV = f.dataV := rfl
@[simp] theorem Status.gridCleared_eccV (f : Status) : (f.gridCleared).eccV = f.eccV := rfl
@[simp] theorem Status.gridCleared_fmtV (f : Status) : (f.gridCleared).fmtV = f.fmtV := rfl
@[simp] theorem Status.gridCleared_rendV (f : Status) : (f.gridCleared).rendV = false := rfl
@[simp] theorem Status.gridCleared_resV (f : Status) : (f.gridCleared).resV = f.resV := rfl
@[simp] theorem Status.gridCleared_phase (f : Status) : (f.gridCleared).phase = 0 := rfl

@[simp] theorem Status.atPhase_dataV (f : Status) (p : BitVec 3) : (f.atPhase p).dataV = f.dataV := rfl
@[simp] theorem Status.atPhase_eccV (f : Status) (p : BitVec 3) : (f.atPhase p).eccV = f.eccV := rfl
@[simp] theorem Status.atPhase_fmtV (f : Status) (p : BitVec 3) : (f.atPhase p).fmtV = f.fmtV := rfl
@[simp] theorem Status.atPhase_rendV (f : Status) (p : BitVec 3) : (f.atPhase p).rendV = f.rendV := rfl
@[simp] theorem Status.atPhase_resV (f : Status) (p : BitVec 3) : (f.atPhase p).resV = f.resV := rfl
@[simp] theorem Status.atPhase_phase (f : Status) (p : BitVec 3) : (f.atPhase p).phase = p := rfl

/-! ## `State` -/

@[simp] theorem State.setRes_exp (s : State) (v : Byte) :
    (s.setRes v).exp = s.exp := rfl
@[simp] theorem State.setRes_log (s : State) (v : Byte) :
    (s.setRes v).log = s.log := rfl
@[simp] theorem State.setRes_gen (s : State) (v : Byte) :
    (s.setRes v).gen = s.gen := rfl
@[simp] theorem State.setRes_txt (s : State) (v : Byte) :
    (s.setRes v).txt = s.txt := rfl
@[simp] theorem State.setRes_hint (s : State) (v : Byte) :
    (s.setRes v).hint = s.hint := rfl
@[simp] theorem State.setRes_data (s : State) (v : Byte) :
    (s.setRes v).data = s.data := rfl
@[simp] theorem State.setRes_ecc (s : State) (v : Byte) :
    (s.setRes v).ecc = s.ecc := rfl
@[simp] theorem State.setRes_grid (s : State) (v : Byte) :
    (s.setRes v).grid = s.grid := rfl
@[simp] theorem State.setRes_rsv (s : State) (v : Byte) :
    (s.setRes v).rsv = s.rsv := rfl
@[simp] theorem State.setRes_fmt (s : State) (v : Byte) :
    (s.setRes v).fmt = s.fmt := rfl
@[simp] theorem State.setRes_modpx (s : State) (v : Byte) :
    (s.setRes v).modpx = s.modpx := rfl
@[simp] theorem State.setRes_canvas (s : State) (v : Byte) :
    (s.setRes v).canvas = s.canvas := rfl
@[simp] theorem State.setRes_nrect (s : State) (v : Byte) :
    (s.setRes v).nrect = s.nrect := rfl
@[simp] theorem State.setRes_rect (s : State) (v : Byte) :
    (s.setRes v).rect = s.rect := rfl
@[simp] theorem State.setRes_res (s : State) (v : Byte) :
    (s.setRes v).res = v := rfl
@[simp] theorem State.setRes_status (s : State) (v : Byte) :
    (s.setRes v).status = s.status.resDone := rfl
@[simp] theorem State.setRes_fault (s : State) (v : Byte) :
    (s.setRes v).fault = s.fault := rfl
@[simp] theorem State.setRes_finfo (s : State) (v : Byte) :
    (s.setRes v).finfo = s.finfo := rfl
@[simp] theorem State.setRes_cfg (s : State) (v : Byte) :
    (s.setRes v).cfg = s.cfg := rfl
@[simp] theorem State.setRes_port (s : State) (v : Byte) :
    (s.setRes v).port = s.port := rfl

@[simp] theorem State.setTxt_exp (s : State) (t : List CodeUnit) :
    (s.setTxt t).exp = s.exp := rfl
@[simp] theorem State.setTxt_log (s : State) (t : List CodeUnit) :
    (s.setTxt t).log = s.log := rfl
@[simp] theorem State.setTxt_gen (s : State) (t : List CodeUnit) :
    (s.setTxt t).gen = s.gen := rfl
@[simp] theorem State.setTxt_txt (s : State) (t : List CodeUnit) :
    (s.setTxt t).txt = t := rfl
@[simp] theorem State.setTxt_hint (s : State) (t : List CodeUnit) :
    (s.setTxt t).hint = s.hint := rfl
@[simp] theorem State.setTxt_data (s : State) (t : List CodeUnit) :
    (s.setTxt t).data = s.data := rfl
@[simp] theorem State.setTxt_ecc (s : State) (t : List CodeUnit) :
    (s.setTxt t).ecc = s.ecc := rfl
@[simp] theorem State.setTxt_grid (s : State) (t : List CodeUnit) :
    (s.setTxt t).grid = s.grid := rfl
@[simp] theorem State.setTxt_rsv (s : State) (t : List CodeUnit) :
    (s.setTxt t).rsv = s.rsv := rfl
@[simp] theorem State.setTxt_fmt (s : State) (t : List CodeUnit) :
    (s.setTxt t).fmt = s.fmt := rfl
@[simp] theorem State.setTxt_modpx (s : State) (t : List CodeUnit) :
    (s.setTxt t).modpx = s.modpx := rfl
@[simp] theorem State.setTxt_canvas (s : State) (t : List CodeUnit) :
    (s.setTxt t).canvas = s.canvas := rfl
@[simp] theorem State.setTxt_nrect (s : State) (t : List CodeUnit) :
    (s.setTxt t).nrect = s.nrect := rfl
@[simp] theorem State.setTxt_rect (s : State) (t : List CodeUnit) :
    (s.setTxt t).rect = s.rect := rfl
@[simp] theorem State.setTxt_res (s : State) (t : List CodeUnit) :
    (s.setTxt t).res = s.res := rfl
@[simp] theorem State.setTxt_status (s : State) (t : List CodeUnit) :
    (s.setTxt t).status = s.status := rfl
@[simp] theorem State.setTxt_fault (s : State) (t : List CodeUnit) :
    (s.setTxt t).fault = s.fault := rfl
@[simp] theorem State.setTxt_finfo (s : State) (t : List CodeUnit) :
    (s.setTxt t).finfo = s.finfo := rfl
@[simp] theorem State.setTxt_cfg (s : State) (t : List CodeUnit) :
    (s.setTxt t).cfg = s.cfg := rfl
@[simp] theorem State.setTxt_port (s : State) (t : List CodeUnit) :
    (s.setTxt t).port = s.port := rfl

@[simp] theorem State.setHint_exp (s : State) (h : Nat) :
    (s.setHint h).exp = s.exp := rfl
@[simp] theorem State.setHint_log (s : State) (h : Nat) :
    (s.setHint h).log = s.log := rfl
@[simp] theorem State.setHint_gen (s : State) (h : Nat) :
    (s.setHint h).gen = s.gen := rfl
@[simp] theorem State.setHint_txt (s : State) (h : Nat) :
    (s.setHint h).txt = s.txt := rfl
@[simp] theorem State.setHint_hint (s : State) (h : Nat) :
    (s.setHint h).hint = h := rfl
@[simp] theorem State.setHint_data (s : State) (h : Nat) :
    (s.setHint h).data = s.data := rfl
@[simp] theorem State.setHint_ecc (s : State) (h : Nat) :
    (s.setHint h).ecc = s.ecc := rfl
@[simp] theorem State.setHint_grid (s : State) (h : Nat) :
    (s.setHint h).grid = s.grid := rfl
@[simp] theorem State.setHint_rsv (s : State) (h : Nat) :
    (s.setHint h).rsv = s.rsv := rfl
@[simp] theorem State.setHint_fmt (s : State) (h : Nat) :
    (s.setHint h).fmt = s.fmt := rfl
@[simp] theorem State.setHint_modpx (s : State) (h : Nat) :
    (s.setHint h).modpx = s.modpx := rfl
@[simp] theorem State.setHint_canvas (s : State) (h : Nat) :
    (s.setHint h).canvas = s.canvas := rfl
@[simp] theorem State.setHint_nrect (s : State) (h : Nat) :
    (s.setHint h).nrect = s.nrect := rfl
@[simp] theorem State.setHint_rect (s : State) (h : Nat) :
    (s.setHint h).rect = s.rect := rfl
@[simp] theorem State.setHint_res (s : State) (h : Nat) :
    (s.setHint h).res = s.res := rfl
@[simp] theorem State.setHint_status (s : State) (h : Nat) :
    (s.setHint h).status = s.status := rfl
@[simp] theorem State.setHint_fault (s : State) (h : Nat) :
    (s.setHint h).fault = s.fault := rfl
@[simp] theorem State.setHint_finfo (s : State) (h : Nat) :
    (s.setHint h).finfo = s.finfo := rfl
@[simp] theorem State.setHint_cfg (s : State) (h : Nat) :
    (s.setHint h).cfg = s.cfg := rfl
@[simp] theorem State.setHint_port (s : State) (h : Nat) :
    (s.setHint h).port = s.port := rfl

@[simp] theorem State.setData_exp (s : State) (d : Vector Byte 19) :
    (s.setData d).exp = s.exp := rfl
@[simp] theorem State.setData_log (s : State) (d : Vector Byte 19) :
    (s.setData d).log = s.log := rfl
@[simp] theorem State.setData_gen (s : State) (d : Vector Byte 19) :
    (s.setData d).gen = s.gen := rfl
@[simp] theorem State.setData_txt (s : State) (d : Vector Byte 19) :
    (s.setData d).txt = s.txt := rfl
@[simp] theorem State.setData_hint (s : State) (d : Vector Byte 19) :
    (s.setData d).hint = s.hint := rfl
@[simp] theorem State.setData_data (s : State) (d : Vector Byte 19) :
    (s.setData d).data = d := rfl
@[simp] theorem State.setData_ecc (s : State) (d : Vector Byte 19) :
    (s.setData d).ecc = s.ecc := rfl
@[simp] theorem State.setData_grid (s : State) (d : Vector Byte 19) :
    (s.setData d).grid = s.grid := rfl
@[simp] theorem State.setData_rsv (s : State) (d : Vector Byte 19) :
    (s.setData d).rsv = s.rsv := rfl
@[simp] theorem State.setData_fmt (s : State) (d : Vector Byte 19) :
    (s.setData d).fmt = s.fmt := rfl
@[simp] theorem State.setData_modpx (s : State) (d : Vector Byte 19) :
    (s.setData d).modpx = s.modpx := rfl
@[simp] theorem State.setData_canvas (s : State) (d : Vector Byte 19) :
    (s.setData d).canvas = s.canvas := rfl
@[simp] theorem State.setData_nrect (s : State) (d : Vector Byte 19) :
    (s.setData d).nrect = s.nrect := rfl
@[simp] theorem State.setData_rect (s : State) (d : Vector Byte 19) :
    (s.setData d).rect = s.rect := rfl
@[simp] theorem State.setData_res (s : State) (d : Vector Byte 19) :
    (s.setData d).res = s.res := rfl
@[simp] theorem State.setData_status (s : State) (d : Vector Byte 19) :
    (s.setData d).status = s.status.assembled := rfl
@[simp] theorem State.setData_fault (s : State) (d : Vector Byte 19) :
    (s.setData d).fault = s.fault := rfl
@[simp] theorem State.setData_finfo (s : State) (d : Vector Byte 19) :
    (s.setData d).finfo = s.finfo := rfl
@[simp] theorem State.setData_cfg (s : State) (d : Vector Byte 19) :
    (s.setData d).cfg = s.cfg := rfl
@[simp] theorem State.setData_port (s : State) (d : Vector Byte 19) :
    (s.setData d).port = s.port := rfl

@[simp] theorem State.setEcc_exp (s : State) (e : Vector Byte 7) :
    (s.setEcc e).exp = s.exp := rfl
@[simp] theorem State.setEcc_log (s : State) (e : Vector Byte 7) :
    (s.setEcc e).log = s.log := rfl
@[simp] theorem State.setEcc_gen (s : State) (e : Vector Byte 7) :
    (s.setEcc e).gen = s.gen := rfl
@[simp] theorem State.setEcc_txt (s : State) (e : Vector Byte 7) :
    (s.setEcc e).txt = s.txt := rfl
@[simp] theorem State.setEcc_hint (s : State) (e : Vector Byte 7) :
    (s.setEcc e).hint = s.hint := rfl
@[simp] theorem State.setEcc_data (s : State) (e : Vector Byte 7) :
    (s.setEcc e).data = s.data := rfl
@[simp] theorem State.setEcc_ecc (s : State) (e : Vector Byte 7) :
    (s.setEcc e).ecc = e := rfl
@[simp] theorem State.setEcc_grid (s : State) (e : Vector Byte 7) :
    (s.setEcc e).grid = s.grid := rfl
@[simp] theorem State.setEcc_rsv (s : State) (e : Vector Byte 7) :
    (s.setEcc e).rsv = s.rsv := rfl
@[simp] theorem State.setEcc_fmt (s : State) (e : Vector Byte 7) :
    (s.setEcc e).fmt = s.fmt := rfl
@[simp] theorem State.setEcc_modpx (s : State) (e : Vector Byte 7) :
    (s.setEcc e).modpx = s.modpx := rfl
@[simp] theorem State.setEcc_canvas (s : State) (e : Vector Byte 7) :
    (s.setEcc e).canvas = s.canvas := rfl
@[simp] theorem State.setEcc_nrect (s : State) (e : Vector Byte 7) :
    (s.setEcc e).nrect = s.nrect := rfl
@[simp] theorem State.setEcc_rect (s : State) (e : Vector Byte 7) :
    (s.setEcc e).rect = s.rect := rfl
@[simp] theorem State.setEcc_res (s : State) (e : Vector Byte 7) :
    (s.setEcc e).res = s.res := rfl
@[simp] theorem State.setEcc_status (s : State) (e : Vector Byte 7) :
    (s.setEcc e).status = s.status.eccDone := rfl
@[simp] theorem State.setEcc_fault (s : State) (e : Vector Byte 7) :
    (s.setEcc e).fault = s.fault := rfl
@[simp] theorem State.setEcc_finfo (s : State) (e : Vector Byte 7) :
    (s.setEcc e).finfo = s.finfo := rfl
@[simp] theorem State.setEcc_cfg (s : State) (e : Vector Byte 7) :
    (s.setEcc e).cfg = s.cfg := rfl
@[simp] theorem State.setEcc_port (s : State) (e : Vector Byte 7) :
    (s.setEcc e).port = s.port := rfl

@[simp] theorem State.setFmt_exp (s : State) (f : BitVec 15) :
    (s.setFmt f).exp = s.exp := rfl
@[simp] theorem State.setFmt_log (s : State) (f : BitVec 15) :
    (s.setFmt f).log = s.log := rfl
@[simp] theorem State.setFmt_gen (s : State) (f : BitVec 15) :
    (s.setFmt f).gen = s.gen := rfl
@[simp] theorem State.setFmt_txt (s : State) (f : BitVec 15) :
    (s.setFmt f).txt = s.txt := rfl
@[simp] theorem State.setFmt_hint (s : State) (f : BitVec 15) :
    (s.setFmt f).hint = s.hint := rfl
@[simp] theorem State.setFmt_data (s : State) (f : BitVec 15) :
    (s.setFmt f).data = s.data := rfl
@[simp] theorem State.setFmt_ecc (s : State) (f : BitVec 15) :
    (s.setFmt f).ecc = s.ecc := rfl
@[simp] theorem State.setFmt_grid (s : State) (f : BitVec 15) :
    (s.setFmt f).grid = s.grid := rfl
@[simp] theorem State.setFmt_rsv (s : State) (f : BitVec 15) :
    (s.setFmt f).rsv = s.rsv := rfl
@[simp] theorem State.setFmt_fmt (s : State) (f : BitVec 15) :
    (s.setFmt f).fmt = f := rfl
@[simp] theorem State.setFmt_modpx (s : State) (f : BitVec 15) :
    (s.setFmt f).modpx = s.modpx := rfl
@[simp] theorem State.setFmt_canvas (s : State) (f : BitVec 15) :
    (s.setFmt f).canvas = s.canvas := rfl
@[simp] theorem State.setFmt_nrect (s : State) (f : BitVec 15) :
    (s.setFmt f).nrect = s.nrect := rfl
@[simp] theorem State.setFmt_rect (s : State) (f : BitVec 15) :
    (s.setFmt f).rect = s.rect := rfl
@[simp] theorem State.setFmt_res (s : State) (f : BitVec 15) :
    (s.setFmt f).res = s.res := rfl
@[simp] theorem State.setFmt_status (s : State) (f : BitVec 15) :
    (s.setFmt f).status = s.status.fmtDone := rfl
@[simp] theorem State.setFmt_fault (s : State) (f : BitVec 15) :
    (s.setFmt f).fault = s.fault := rfl
@[simp] theorem State.setFmt_finfo (s : State) (f : BitVec 15) :
    (s.setFmt f).finfo = s.finfo := rfl
@[simp] theorem State.setFmt_cfg (s : State) (f : BitVec 15) :
    (s.setFmt f).cfg = s.cfg := rfl
@[simp] theorem State.setFmt_port (s : State) (f : BitVec 15) :
    (s.setFmt f).port = s.port := rfl

@[simp] theorem State.setGrid_exp (s : State) (g : Grid Cell) (p : BitVec 3) :
    (s.setGrid g p).exp = s.exp := rfl
@[simp] theorem State.setGrid_log (s : State) (g : Grid Cell) (p : BitVec 3) :
    (s.setGrid g p).log = s.log := rfl
@[simp] theorem State.setGrid_gen (s : State) (g : Grid Cell) (p : BitVec 3) :
    (s.setGrid g p).gen = s.gen := rfl
@[simp] theorem State.setGrid_txt (s : State) (g : Grid Cell) (p : BitVec 3) :
    (s.setGrid g p).txt = s.txt := rfl
@[simp] theorem State.setGrid_hint (s : State) (g : Grid Cell) (p : BitVec 3) :
    (s.setGrid g p).hint = s.hint := rfl
@[simp] theorem State.setGrid_data (s : State) (g : Grid Cell) (p : BitVec 3) :
    (s.setGrid g p).data = s.data := rfl
@[simp] theorem State.setGrid_ecc (s : State) (g : Grid Cell) (p : BitVec 3) :
    (s.setGrid g p).ecc = s.ecc := rfl
@[simp] theorem State.setGrid_grid (s : State) (g : Grid Cell) (p : BitVec 3) :
    (s.setGrid g p).grid = g := rfl
@[simp] theorem State.setGrid_rsv (s : State) (g : Grid Cell) (p : BitVec 3) :
    (s.setGrid g p).rsv = s.rsv := rfl
@[simp] theorem State.setGrid_fmt (s : State) (g : Grid Cell) (p : BitVec 3) :
    (s.setGrid g p).fmt = s.fmt := rfl
@[simp] theorem State.setGrid_modpx (s : State) (g : Grid Cell) (p : BitVec 3) :
    (s.setGrid g p).modpx = s.modpx := rfl
@[simp] theorem State.setGrid_canvas (s : State) (g : Grid Cell) (p : BitVec 3) :
    (s.setGrid g p).canvas = s.canvas := rfl
@[simp] theorem State.setGrid_nrect (s : State) (g : Grid Cell) (p : BitVec 3) :
    (s.setGrid g p).nrect = s.nrect := rfl
@[simp] theorem State.setGrid_rect (s : State) (g : Grid Cell) (p : BitVec 3) :
    (s.setGrid g p).rect = s.rect := rfl
@[simp] theorem State.setGrid_res (s : State) (g : Grid Cell) (p : BitVec 3) :
    (s.setGrid g p).res = s.res := rfl
@[simp] theorem State.setGrid_status (s : State) (g : Grid Cell) (p : BitVec 3) :
    (s.setGrid g p).status = s.status.atPhase p := rfl
@[simp] theorem State.setGrid_fault (s : State) (g : Grid Cell) (p : BitVec 3) :
    (s.setGrid g p).fault = s.fault := rfl
@[simp] theorem State.setGrid_finfo (s : State) (g : Grid Cell) (p : BitVec 3) :
    (s.setGrid g p).finfo = s.finfo := rfl
@[simp] theorem State.setGrid_cfg (s : State) (g : Grid Cell) (p : BitVec 3) :
    (s.setGrid g p).cfg = s.cfg := rfl
@[simp] theorem State.setGrid_port (s : State) (g : Grid Cell) (p : BitVec 3) :
    (s.setGrid g p).port = s.port := rfl

@[simp] theorem State.clearGrid_exp (s : State) :
    (s.clearGrid).exp = s.exp := rfl
@[simp] theorem State.clearGrid_log (s : State) :
    (s.clearGrid).log = s.log := rfl
@[simp] theorem State.clearGrid_gen (s : State) :
    (s.clearGrid).gen = s.gen := rfl
@[simp] theorem State.clearGrid_txt (s : State) :
    (s.clearGrid).txt = s.txt := rfl
@[simp] theorem State.clearGrid_hint (s : State) :
    (s.clearGrid).hint = s.hint := rfl
@[simp] theorem State.clearGrid_data (s : State) :
    (s.clearGrid).data = s.data := rfl
@[simp] theorem State.clearGrid_ecc (s : State) :
    (s.clearGrid).ecc = s.ecc := rfl
@[simp] theorem State.clearGrid_grid (s : State) :
    (s.clearGrid).grid = Grid.fill .unset := rfl
@[simp] theorem State.clearGrid_rsv (s : State) :
    (s.clearGrid).rsv = s.rsv := rfl
@[simp] theorem State.clearGrid_fmt (s : State) :
    (s.clearGrid).fmt = s.fmt := rfl
@[simp] theorem State.clearGrid_modpx (s : State) :
    (s.clearGrid).modpx = s.modpx := rfl
@[simp] theorem State.clearGrid_canvas (s : State) :
    (s.clearGrid).canvas = s.canvas := rfl
@[simp] theorem State.clearGrid_nrect (s : State) :
    (s.clearGrid).nrect = s.nrect := rfl
@[simp] theorem State.clearGrid_rect (s : State) :
    (s.clearGrid).rect = s.rect := rfl
@[simp] theorem State.clearGrid_res (s : State) :
    (s.clearGrid).res = s.res := rfl
@[simp] theorem State.clearGrid_status (s : State) :
    (s.clearGrid).status = s.status.gridCleared := rfl
@[simp] theorem State.clearGrid_fault (s : State) :
    (s.clearGrid).fault = s.fault := rfl
@[simp] theorem State.clearGrid_finfo (s : State) :
    (s.clearGrid).finfo = s.finfo := rfl
@[simp] theorem State.clearGrid_cfg (s : State) :
    (s.clearGrid).cfg = s.cfg := rfl
@[simp] theorem State.clearGrid_port (s : State) :
    (s.clearGrid).port = s.port := rfl

@[simp] theorem State.setRsv_exp (s : State) (r : Grid Bool) (p : BitVec 3) :
    (s.setRsv r p).exp = s.exp := rfl
@[simp] theorem State.setRsv_log (s : State) (r : Grid Bool) (p : BitVec 3) :
    (s.setRsv r p).log = s.log := rfl
@[simp] theorem State.setRsv_gen (s : State) (r : Grid Bool) (p : BitVec 3) :
    (s.setRsv r p).gen = s.gen := rfl
@[simp] theorem State.setRsv_txt (s : State) (r : Grid Bool) (p : BitVec 3) :
    (s.setRsv r p).txt = s.txt := rfl
@[simp] theorem State.setRsv_hint (s : State) (r : Grid Bool) (p : BitVec 3) :
    (s.setRsv r p).hint = s.hint := rfl
@[simp] theorem State.setRsv_data (s : State) (r : Grid Bool) (p : BitVec 3) :
    (s.setRsv r p).data = s.data := rfl
@[simp] theorem State.setRsv_ecc (s : State) (r : Grid Bool) (p : BitVec 3) :
    (s.setRsv r p).ecc = s.ecc := rfl
@[simp] theorem State.setRsv_grid (s : State) (r : Grid Bool) (p : BitVec 3) :
    (s.setRsv r p).grid = s.grid := rfl
@[simp] theorem State.setRsv_rsv (s : State) (r : Grid Bool) (p : BitVec 3) :
    (s.setRsv r p).rsv = r := rfl
@[simp] theorem State.setRsv_fmt (s : State) (r : Grid Bool) (p : BitVec 3) :
    (s.setRsv r p).fmt = s.fmt := rfl
@[simp] theorem State.setRsv_modpx (s : State) (r : Grid Bool) (p : BitVec 3) :
    (s.setRsv r p).modpx = s.modpx := rfl
@[simp] theorem State.setRsv_canvas (s : State) (r : Grid Bool) (p : BitVec 3) :
    (s.setRsv r p).canvas = s.canvas := rfl
@[simp] theorem State.setRsv_nrect (s : State) (r : Grid Bool) (p : BitVec 3) :
    (s.setRsv r p).nrect = s.nrect := rfl
@[simp] theorem State.setRsv_rect (s : State) (r : Grid Bool) (p : BitVec 3) :
    (s.setRsv r p).rect = s.rect := rfl
@[simp] theorem State.setRsv_res (s : State) (r : Grid Bool) (p : BitVec 3) :
    (s.setRsv r p).res = s.res := rfl
@[simp] theorem State.setRsv_status (s : State) (r : Grid Bool) (p : BitVec 3) :
    (s.setRsv r p).status = s.status.atPhase p := rfl
@[simp] theorem State.setRsv_fault (s : State) (r : Grid Bool) (p : BitVec 3) :
    (s.setRsv r p).fault = s.fault := rfl
@[simp] theorem State.setRsv_finfo (s : State) (r : Grid Bool) (p : BitVec 3) :
    (s.setRsv r p).finfo = s.finfo := rfl
@[simp] theorem State.setRsv_cfg (s : State) (r : Grid Bool) (p : BitVec 3) :
    (s.setRsv r p).cfg = s.cfg := rfl
@[simp] theorem State.setRsv_port (s : State) (r : Grid Bool) (p : BitVec 3) :
    (s.setRsv r p).port = s.port := rfl

@[simp] theorem State.setRender_exp (s : State) (m c : Nat) (n : BitVec 9) (r : List Rect) :
    (s.setRender m c n r).exp = s.exp := rfl
@[simp] theorem State.setRender_log (s : State) (m c : Nat) (n : BitVec 9) (r : List Rect) :
    (s.setRender m c n r).log = s.log := rfl
@[simp] theorem State.setRender_gen (s : State) (m c : Nat) (n : BitVec 9) (r : List Rect) :
    (s.setRender m c n r).gen = s.gen := rfl
@[simp] theorem State.setRender_txt (s : State) (m c : Nat) (n : BitVec 9) (r : List Rect) :
    (s.setRender m c n r).txt = s.txt := rfl
@[simp] theorem State.setRender_hint (s : State) (m c : Nat) (n : BitVec 9) (r : List Rect) :
    (s.setRender m c n r).hint = s.hint := rfl
@[simp] theorem State.setRender_data (s : State) (m c : Nat) (n : BitVec 9) (r : List Rect) :
    (s.setRender m c n r).data = s.data := rfl
@[simp] theorem State.setRender_ecc (s : State) (m c : Nat) (n : BitVec 9) (r : List Rect) :
    (s.setRender m c n r).ecc = s.ecc := rfl
@[simp] theorem State.setRender_grid (s : State) (m c : Nat) (n : BitVec 9) (r : List Rect) :
    (s.setRender m c n r).grid = s.grid := rfl
@[simp] theorem State.setRender_rsv (s : State) (m c : Nat) (n : BitVec 9) (r : List Rect) :
    (s.setRender m c n r).rsv = s.rsv := rfl
@[simp] theorem State.setRender_fmt (s : State) (m c : Nat) (n : BitVec 9) (r : List Rect) :
    (s.setRender m c n r).fmt = s.fmt := rfl
@[simp] theorem State.setRender_modpx (s : State) (m c : Nat) (n : BitVec 9) (r : List Rect) :
    (s.setRender m c n r).modpx = m := rfl
@[simp] theorem State.setRender_canvas (s : State) (m c : Nat) (n : BitVec 9) (r : List Rect) :
    (s.setRender m c n r).canvas = c := rfl
@[simp] theorem State.setRender_nrect (s : State) (m c : Nat) (n : BitVec 9) (r : List Rect) :
    (s.setRender m c n r).nrect = n := rfl
@[simp] theorem State.setRender_rect (s : State) (m c : Nat) (n : BitVec 9) (r : List Rect) :
    (s.setRender m c n r).rect = r := rfl
@[simp] theorem State.setRender_res (s : State) (m c : Nat) (n : BitVec 9) (r : List Rect) :
    (s.setRender m c n r).res = s.res := rfl
@[simp] theorem State.setRender_status (s : State) (m c : Nat) (n : BitVec 9) (r : List Rect) :
    (s.setRender m c n r).status = s.status.rendered := rfl
@[simp] theorem State.setRender_fault (s : State) (m c : Nat) (n : BitVec 9) (r : List Rect) :
    (s.setRender m c n r).fault = s.fault := rfl
@[simp] theorem State.setRender_finfo (s : State) (m c : Nat) (n : BitVec 9) (r : List Rect) :
    (s.setRender m c n r).finfo = s.finfo := rfl
@[simp] theorem State.setRender_cfg (s : State) (m c : Nat) (n : BitVec 9) (r : List Rect) :
    (s.setRender m c n r).cfg = s.cfg := rfl
@[simp] theorem State.setRender_port (s : State) (m c : Nat) (n : BitVec 9) (r : List Rect) :
    (s.setRender m c n r).port = s.port := rfl

@[simp] theorem State.setPort_exp (s : State) (p : List HostEvent) :
    (s.setPort p).exp = s.exp := rfl
@[simp] theorem State.setPort_log (s : State) (p : List HostEvent) :
    (s.setPort p).log = s.log := rfl
@[simp] theorem State.setPort_gen (s : State) (p : List HostEvent) :
    (s.setPort p).gen = s.gen := rfl
@[simp] theorem State.setPort_txt (s : State) (p : List HostEvent) :
    (s.setPort p).txt = s.txt := rfl
@[simp] theorem State.setPort_hint (s : State) (p : List HostEvent) :
    (s.setPort p).hint = s.hint := rfl
@[simp] theorem State.setPort_data (s : State) (p : List HostEvent) :
    (s.setPort p).data = s.data := rfl
@[simp] theorem State.setPort_ecc (s : State) (p : List HostEvent) :
    (s.setPort p).ecc = s.ecc := rfl
@[simp] theorem State.setPort_grid (s : State) (p : List HostEvent) :
    (s.setPort p).grid = s.grid := rfl
@[simp] theorem State.setPort_rsv (s : State) (p : List HostEvent) :
    (s.setPort p).rsv = s.rsv := rfl
@[simp] theorem State.setPort_fmt (s : State) (p : List HostEvent) :
    (s.setPort p).fmt = s.fmt := rfl
@[simp] theorem State.setPort_modpx (s : State) (p : List HostEvent) :
    (s.setPort p).modpx = s.modpx := rfl
@[simp] theorem State.setPort_canvas (s : State) (p : List HostEvent) :
    (s.setPort p).canvas = s.canvas := rfl
@[simp] theorem State.setPort_nrect (s : State) (p : List HostEvent) :
    (s.setPort p).nrect = s.nrect := rfl
@[simp] theorem State.setPort_rect (s : State) (p : List HostEvent) :
    (s.setPort p).rect = s.rect := rfl
@[simp] theorem State.setPort_res (s : State) (p : List HostEvent) :
    (s.setPort p).res = s.res := rfl
@[simp] theorem State.setPort_status (s : State) (p : List HostEvent) :
    (s.setPort p).status = s.status := rfl
@[simp] theorem State.setPort_fault (s : State) (p : List HostEvent) :
    (s.setPort p).fault = s.fault := rfl
@[simp] theorem State.setPort_finfo (s : State) (p : List HostEvent) :
    (s.setPort p).finfo = s.finfo := rfl
@[simp] theorem State.setPort_cfg (s : State) (p : List HostEvent) :
    (s.setPort p).cfg = s.cfg := rfl
@[simp] theorem State.setPort_port (s : State) (p : List HostEvent) :
    (s.setPort p).port = p := rfl

@[simp] theorem State.takeFault_exp (s : State) (c : Cause) (w : Word) :
    (s.takeFault c w).exp = s.exp := rfl
@[simp] theorem State.takeFault_log (s : State) (c : Cause) (w : Word) :
    (s.takeFault c w).log = s.log := rfl
@[simp] theorem State.takeFault_gen (s : State) (c : Cause) (w : Word) :
    (s.takeFault c w).gen = s.gen := rfl
@[simp] theorem State.takeFault_txt (s : State) (c : Cause) (w : Word) :
    (s.takeFault c w).txt = s.txt := rfl
@[simp] theorem State.takeFault_hint (s : State) (c : Cause) (w : Word) :
    (s.takeFault c w).hint = s.hint := rfl
@[simp] theorem State.takeFault_data (s : State) (c : Cause) (w : Word) :
    (s.takeFault c w).data = s.data := rfl
@[simp] theorem State.takeFault_ecc (s : State) (c : Cause) (w : Word) :
    (s.takeFault c w).ecc = s.ecc := rfl
@[simp] theorem State.takeFault_grid (s : State) (c : Cause) (w : Word) :
    (s.takeFault c w).grid = s.grid := rfl
@[simp] theorem State.takeFault_rsv (s : State) (c : Cause) (w : Word) :
    (s.takeFault c w).rsv = s.rsv := rfl
@[simp] theorem State.takeFault_fmt (s : State) (c : Cause) (w : Word) :
    (s.takeFault c w).fmt = s.fmt := rfl
@[simp] theorem State.takeFault_modpx (s : State) (c : Cause) (w : Word) :
    (s.takeFault c w).modpx = s.modpx := rfl
@[simp] theorem State.takeFault_canvas (s : State) (c : Cause) (w : Word) :
    (s.takeFault c w).canvas = s.canvas := rfl
@[simp] theorem State.takeFault_nrect (s : State) (c : Cause) (w : Word) :
    (s.takeFault c w).nrect = s.nrect := rfl
@[simp] theorem State.takeFault_rect (s : State) (c : Cause) (w : Word) :
    (s.takeFault c w).rect = s.rect := rfl
@[simp] theorem State.takeFault_res (s : State) (c : Cause) (w : Word) :
    (s.takeFault c w).res = s.res := rfl
@[simp] theorem State.takeFault_status (s : State) (c : Cause) (w : Word) :
    (s.takeFault c w).status = s.status := rfl
@[simp] theorem State.takeFault_fault (s : State) (c : Cause) (w : Word) :
    (s.takeFault c w).fault = c := rfl
@[simp] theorem State.takeFault_finfo (s : State) (c : Cause) (w : Word) :
    (s.takeFault c w).finfo = w := rfl
@[simp] theorem State.takeFault_cfg (s : State) (c : Cause) (w : Word) :
    (s.takeFault c w).cfg = s.cfg := rfl
@[simp] theorem State.takeFault_port (s : State) (c : Cause) (w : Word) :
    (s.takeFault c w).port = s.port := rfl

/-! ## Reset -/

@[simp] theorem State.resetWith_exp (c : Config) : (State.resetWith c).exp = expTable := rfl
@[simp] theorem State.resetWith_log (c : Config) : (State.resetWith c).log = logTable c.log1 := rfl
@[simp] theorem State.resetWith_gen (c : Config) : (State.resetWith c).gen = c.gen := rfl
@[simp] theorem State.resetWith_txt (c : Config) : (State.resetWith c).txt = [] := rfl
@[simp] theorem State.resetWith_hint (c : Config) : (State.resetWith c).hint = 0 := rfl
@[simp] theorem State.resetWith_grid (c : Config) : (State.resetWith c).grid = Grid.fill .unset := rfl
@[simp] theorem State.resetWith_rsv (c : Config) : (State.resetWith c).rsv = Grid.fill false := rfl
@[simp] theorem State.resetWith_fault (c : Config) : (State.resetWith c).fault = .none := rfl
@[simp] theorem State.resetWith_cfg (c : Config) : (State.resetWith c).cfg = c := rfl
@[simp] theorem State.resetWith_port (c : Config) : (State.resetWith c).port = [] := rfl
@[simp] theorem State.resetWith_status_dataV (c : Config) : (State.resetWith c).status.dataV = false := rfl
@[simp] theorem State.resetWith_status_eccV (c : Config) : (State.resetWith c).status.eccV = false := rfl
@[simp] theorem State.resetWith_status_fmtV (c : Config) : (State.resetWith c).status.fmtV = false := rfl
@[simp] theorem State.resetWith_status_rendV (c : Config) : (State.resetWith c).status.rendV = false := rfl
@[simp] theorem State.resetWith_status_resV (c : Config) : (State.resetWith c).status.resV = false := rfl
@[simp] theorem State.resetWith_status_phase (c : Config) : (State.resetWith c).status.phase = 0 := rfl

end Sys2Proof.Machine
end

