-- ==== Sys2Proof/Laws/Ops.lean ====
section
/-! SUPPORT. What each shared operation can do, said once: the three checks, fault entry, the acceptance of a word and of an event,
and the step on each shape of what the host presents. -/

namespace Sys2Proof.Machine

/-! ## The three checks -/

theorem whenPhase_pass {p : BitVec 3} {s : State} (h : s.status.phase = p) (i : Instr) (k : Answer) :
    whenPhase p i s k = k := by
  simp [whenPhase, h]

theorem whenPhase_fault {p : BitVec 3} {s : State} (h : s.status.phase ≠ p) (i : Instr) (k : Answer) :
    whenPhase p i s k = .next (s.takeFault .phaseOrder (encode i)) := by
  simp [whenPhase, h]

/-- All a phase check can do. -/
theorem whenPhase_cases {p : BitVec 3} {i : Instr} {s t : State} {k : Answer} (h : whenPhase p i s k = .next t) :
    (s.status.phase = p ∧ k = .next t) ∨ (s.status.phase ≠ p ∧ t = s.takeFault .phaseOrder (encode i)) := by
  by_cases hp : s.status.phase = p
  · exact .inl ⟨hp, by simpa [whenPhase, hp] using h⟩
  · rw [whenPhase_fault hp] at h
    cases h
    exact .inr ⟨hp, rfl⟩

theorem whenValue_pass {b : Bool} (h : b = true) (i : Instr) (s : State) (k : Answer) : whenValue b i s k = k := by
  simp [whenValue, h]

theorem whenValue_fault {b : Bool} (h : b = false) (i : Instr) (s : State) (k : Answer) :
    whenValue b i s k = .next (s.takeFault .noValue (encode i)) := by
  simp [whenValue, h]

/-- All a value check can do. -/
theorem whenValue_cases {b : Bool} {i : Instr} {s t : State} {k : Answer} (h : whenValue b i s k = .next t) :
    (b = true ∧ k = .next t) ∨ (b = false ∧ t = s.takeFault .noValue (encode i)) := by
  cases b
  · rw [whenValue_fault rfl] at h
    cases h
    exact .inr ⟨rfl, rfl⟩
  · exact .inl ⟨rfl, by simpa [whenValue] using h⟩

theorem whenFits_pass {bits n : Nat} (h : n < 2 ^ bits) (i : Instr) (s : State) (k : Answer) : whenFits bits n i s k = k := by
  simp only [whenFits, if_pos h]

theorem whenFits_fault {bits n : Nat} (h : 2 ^ bits ≤ n) (i : Instr) (s : State) (k : Answer) :
    whenFits bits n i s k = .next (s.takeFault .reservedField (encode i)) := by
  simp only [whenFits, if_neg (Nat.not_lt.mpr h)]

/-- All a width check can do. -/
theorem whenFits_cases {bits n : Nat} {i : Instr} {s t : State} {k : Answer} (h : whenFits bits n i s k = .next t) :
    (n < 2 ^ bits ∧ k = .next t) ∨ (2 ^ bits ≤ n ∧ t = s.takeFault .reservedField (encode i)) := by
  by_cases hn : n < 2 ^ bits
  · exact .inl ⟨hn, by rwa [whenFits_pass hn] at h⟩
  · have hn := Nat.not_lt.mp hn
    rw [whenFits_fault hn] at h
    cases h
    exact .inr ⟨hn, rfl⟩

/-! ## Halting -/

@[simp] theorem State.halted_eq_false (s : State) : s.halted = false ↔ s.fault = .none := by
  simp [State.halted]

@[simp] theorem State.halted_eq_true (s : State) : s.halted = true ↔ s.fault ≠ .none := by
  simp [State.halted]

/-! ## What the port does -/

theorem acceptWord_halted {s : State} (h : s.fault ≠ .none) (w : Word) : acceptWord w s = .next s := by
  simp [acceptWord, h]

theorem acceptWord_error {s : State} {w : Word} {e : DecodeError} (h : s.fault = .none) (hd : decode w = .error e) :
    acceptWord w s = .next (s.takeFault (causeOfDecodeError e) w) := by
  simp [acceptWord, h, hd]

theorem acceptWord_ok {s : State} {w : Word} {i : Instr} (h : s.fault = .none) (hd : decode w = .ok i) :
    acceptWord w s = exec i s := by
  simp [acceptWord, h, hd]

theorem acceptArgument_halted {s : State} (h : s.fault ≠ .none) (i : Instr) : acceptArgument i s = .next s := by
  simp [acceptArgument, h]

theorem acceptArgument_running {s : State} (h : s.fault = .none) (i : Instr) : acceptArgument i s = exec i s := by
  simp [acceptArgument, h]

/-- The command an event asks a core for: the word's, or the one whose operand comes as an argument. -/
def eventCommand? (c : Config) : HostEvent → Option Instr
  | .command w => (decode w).toOption
  | .txpush imm => some (.txpush (imm % 2 ^ c.cw))
  | .sethint imm => some (.sethint (imm % 2 ^ c.hintW))
  | .reset => none

theorem acceptEvent_halted {s : State} (h : s.fault ≠ .none) {e : HostEvent} (he : e ≠ .reset) :
    acceptEvent e s = .next s := by
  cases e with
  | reset => exact absurd rfl he
  | command w => exact acceptWord_halted h w
  | txpush imm => exact acceptArgument_halted h _
  | sethint imm => exact acceptArgument_halted h _

/-- All a core that is not halted can do with an event that is no reset. -/
theorem acceptEvent_running {s : State} (h : s.fault = .none) {e : HostEvent} (he : e ≠ .reset) :
    (∃ i, eventCommand? s.cfg e = some i ∧ acceptEvent e s = exec i s) ∨
    ∃ w d, e = .command w ∧ decode w = .error d ∧ acceptEvent e s = .next (s.takeFault (causeOfDecodeError d) w) := by
  cases e with
  | reset => exact absurd rfl he
  | txpush imm => exact .inl ⟨_, rfl, acceptArgument_running h _⟩
  | sethint imm => exact .inl ⟨_, rfl, acceptArgument_running h _⟩
  | command w =>
    cases hd : decode w with
    | ok i => exact .inl ⟨i, by simp [eventCommand?, hd, Except.toOption], acceptWord_ok h hd⟩
    | error d => exact .inr ⟨w, d, rfl, hd, acceptWord_error h hd⟩

/-- All a step can do: wait, reset, discard, fault on a word that is no command, or execute a command. -/
theorem step_cases {s t : State} (h : step s = .next t) :
    (s.port = [] ∧ t = s) ∨
    (∃ rest, s.port = .reset :: rest ∧ t = (s.setPort rest).resetCore) ∨
    (∃ e rest, s.port = e :: rest ∧ e ≠ .reset ∧ s.fault ≠ .none ∧ t = s.setPort rest) ∨
    (∃ w rest d, s.port = .command w :: rest ∧ s.fault = .none ∧ decode w = .error d ∧
      t = (s.setPort rest).takeFault (causeOfDecodeError d) w) ∨
    (∃ e rest i, s.port = e :: rest ∧ s.fault = .none ∧ eventCommand? s.cfg e = some i ∧
      exec i (s.setPort rest) = .next t) := by
  unfold step takeEvent at h
  split at h
  next hp => cases h; exact .inl ⟨hp, rfl⟩
  next e rest hp =>
    by_cases he : e = .reset
    · subst he; cases h; exact .inr (.inl ⟨rest, hp, rfl⟩)
    · by_cases hf : s.fault = .none
      · rcases acceptEvent_running (s := s.setPort rest) hf he with ⟨i, hi, hx⟩ | ⟨w, d, rfl, hd, hx⟩
        · exact .inr (.inr (.inr (.inr ⟨e, rest, i, hp, hf, hi, hx ▸ h⟩)))
        · rw [hx] at h
          cases h
          exact .inr (.inr (.inr (.inl ⟨w, rest, d, hp, hf, hd, rfl⟩)))
      · rw [acceptEvent_halted (s := s.setPort rest) hf he] at h
        cases h
        exact .inr (.inr (.inl ⟨e, rest, hp, he, hf, rfl⟩))

end Sys2Proof.Machine
end

