-- ==== Sys2Proof/Laws/Exec.lean ====
section
/-! SUPPORT. All that executing a command can do, said once: it completes with its effect, in its phase and with the values it
reads, or it takes a fault that changes nothing but the fault registers. -/

namespace Sys2Proof.Machine

/-- The effect of a command that completes. -/
def effectOf : Instr → State → State
  | .nop, s => s
  | .gfexp idx, s => s.setRes (expAt s.exp idx)
  | .gflog a, s => s.setRes (logAt s.log a)
  | .gfmul a b, s => s.setRes (gfMultiply s.exp s.log a b)
  | .txclr, s => s.setTxt []
  | .txpush imm, s => s.setTxt (s.txt ++ [imm])
  | .assemble, s => assembleEffect s
  | .rsenc, s => rsencEffect s
  | .gridclr, s => gridclrEffect s
  | .finder, s => finderEffect s
  | .timing, s => timingEffect s
  | .darkmod, s => darkmodEffect s
  | .reserve, s => reserveEffect s
  | .place, s => placeEffect s
  | .fmtwrite, s => fmtwriteEffect s
  | .finalize, s => finalizeEffect s
  | .fmtenc ec mask, s => fmtencEffect ec mask s
  | .sethint imm, s => s.setHint imm
  | .render, s => renderEffect s
  | .encode, s => encodeEffect s

/-- What a command needs in order to complete: an operand of the core's width, its phase, and that what it reads holds a
value. -/
structure Completes (i : Instr) (s : State) : Prop where
  fits : i.fits s.cfg = true
  phase : ∀ p, requiredPhase? i = some p → s.status.phase = p
  value : readsNoValue s i = false

/-- A phase check, for a command whose further checks and effect are known. -/
theorem whenPhase_inv {p : BitVec 3} {i : Instr} {s t : State} {k : Answer} (h : whenPhase p i s k = .next t)
    (hk : k = .next t → (t = effectOf i s ∧ readsNoValue s i = false) ∨ ∃ c, c ≠ .none ∧ t = s.takeFault c (encode i))
    (hp : requiredPhase? i = some p) (hi : i.fits s.cfg = true) :
    (t = effectOf i s ∧ Completes i s) ∨ ∃ c, c ≠ .none ∧ t = s.takeFault c (encode i) := by
  rcases whenPhase_cases h with ⟨hs, hn⟩ | ⟨-, ht⟩
  · rcases hk hn with ⟨he, hv⟩ | hf
    · exact .inl ⟨he, hi, fun q hq => (by rw [hp] at hq; cases hq; exact hs), hv⟩
    · exact .inr hf
  · exact .inr ⟨_, by decide, ht⟩

/-- A value check, for a command whose effect is known. -/
theorem whenValue_inv {b : Bool} {i : Instr} {s t : State} (h : whenValue b i s (.next (effectOf i s)) = .next t)
    (hv : b = true → readsNoValue s i = false) :
    (t = effectOf i s ∧ readsNoValue s i = false) ∨ ∃ c, c ≠ .none ∧ t = s.takeFault c (encode i) := by
  rcases whenValue_cases h with ⟨hb, hn⟩ | ⟨-, ht⟩
  · cases hn; exact .inl ⟨rfl, hv hb⟩
  · exact .inr ⟨_, by decide, ht⟩

/-- All that executing a command can do. -/
theorem exec_cases {i : Instr} {s t : State} (h : exec i s = .next t) :
    (t = effectOf i s ∧ Completes i s) ∨ ∃ c, c ≠ .none ∧ t = s.takeFault c (encode i) := by
  have free : i.fits s.cfg = true → requiredPhase? i = none → readsNoValue s i = false → t = effectOf i s →
      (t = effectOf i s ∧ Completes i s) ∨ ∃ c, c ≠ .none ∧ t = s.takeFault c (encode i) :=
    fun hi hp hv he => .inl ⟨he, hi, fun p hq => (by rw [hp] at hq; cases hq), hv⟩
  have plain : ∀ {u : State}, (Host.Outcome.next u : Answer) = .next t → u = effectOf i s → readsNoValue s i = false →
      (t = effectOf i s ∧ readsNoValue s i = false) ∨ ∃ c, c ≠ .none ∧ t = s.takeFault c (encode i) :=
    fun hu he hv => by cases hu; exact .inl ⟨he, hv⟩
  cases i with
  | nop => cases h; exact free rfl rfl rfl rfl
  | gfexp idx => cases h; exact free rfl rfl rfl rfl
  | gfmul a b => cases h; exact free rfl rfl rfl rfl
  | txclr => cases h; exact free rfl rfl rfl rfl
  | txpush imm =>
    rcases whenFits_cases h with ⟨hn, hk⟩ | ⟨-, ht⟩
    · cases hk; exact free (decide_eq_true hn) rfl rfl rfl
    · exact .inr ⟨_, by decide, ht⟩
  | assemble => cases h; exact free rfl rfl rfl rfl
  | gridclr => cases h; exact free rfl rfl rfl rfl
  | fmtenc ec mask => cases h; exact free rfl rfl rfl rfl
  | sethint imm =>
    rcases whenFits_cases h with ⟨hn, hk⟩ | ⟨-, ht⟩
    · cases hk; exact free (decide_eq_true hn) rfl rfl rfl
    · exact .inr ⟨_, by decide, ht⟩
  | encode => cases h; exact free rfl rfl rfl rfl
  | gflog a =>
    rcases whenValue_inv h (by simp [readsNoValue]) with ⟨he, hv⟩ | hf
    · exact free rfl rfl hv he
    · exact .inr hf
  | rsenc =>
    rcases whenValue_inv h (by simp [readsNoValue]) with ⟨he, hv⟩ | hf
    · exact free rfl rfl hv he
    · exact .inr hf
  | finder => exact whenPhase_inv h (fun hn => plain hn rfl rfl) rfl rfl
  | timing => exact whenPhase_inv h (fun hn => plain hn rfl rfl) rfl rfl
  | darkmod => exact whenPhase_inv h (fun hn => plain hn rfl rfl) rfl rfl
  | reserve => exact whenPhase_inv h (fun hn => plain hn rfl rfl) rfl rfl
  | finalize => exact whenPhase_inv h (fun hn => plain hn rfl rfl) rfl rfl
  | render => exact whenPhase_inv h (fun hn => plain hn rfl rfl) rfl rfl
  | place => exact whenPhase_inv h (fun hn => whenValue_inv hn (by simp [readsNoValue])) rfl rfl
  | fmtwrite => exact whenPhase_inv h (fun hn => whenValue_inv hn (by simp [readsNoValue])) rfl rfl

/-- No command writes the constant tables, the parameters or what the host presents, whether it completes or faults. -/
theorem effectOf_inputs (i : Instr) (s : State) :
    (effectOf i s).exp = s.exp ∧ (effectOf i s).log = s.log ∧ (effectOf i s).gen = s.gen ∧ (effectOf i s).cfg = s.cfg ∧
      (effectOf i s).port = s.port ∧ (effectOf i s).fault = s.fault ∧ (effectOf i s).finfo = s.finfo := by
  cases i <;>
    simp [effectOf, assembleEffect, rsencEffect, gridclrEffect, finderEffect, timingEffect, darkmodEffect, reserveEffect,
      placeEffect, fmtwriteEffect, finalizeEffect, fmtencEffect, renderEffect, encodeEffect, layoutEffect]

/-- An invariant of one step, from four facts: it survives a change of what is presented, reset, fault entry, and the effect
of every command that completes. -/
theorem step_preserves {P : State → Prop} (hport : ∀ s p, P s → P (s.setPort p)) (hreset : ∀ s, P s → P s.resetCore)
    (hfault : ∀ s c w, P s → P (s.takeFault c w)) (heffect : ∀ i s, P s → Completes i s → P (effectOf i s)) {s t : State}
    (hs : P s) (h : step s = .next t) : P t := by
  rcases step_cases h with ⟨-, rfl⟩ | ⟨rest, -, rfl⟩ | ⟨e, rest, -, -, -, rfl⟩ | ⟨w, rest, d, -, -, -, rfl⟩ |
    ⟨e, rest, i, -, -, -, hx⟩
  · exact hs
  · exact hreset _ (hport _ _ hs)
  · exact hport _ _ hs
  · exact hfault _ _ _ (hport _ _ hs)
  · rcases exec_cases hx with ⟨rfl, hc⟩ | ⟨c, -, rfl⟩
    · exact heffect _ _ (hport _ _ hs) hc
    · exact hfault _ _ _ (hport _ _ hs)

end Sys2Proof.Machine
end

