-- ==== Sys2Proof/Laws/Functions.lean ====
section
/-! SUPPORT. One set of facts for each function the commands compute: the field product, the codeword assembler's lengths, the
cells each layout phase writes, the walk, and the cells the renderer draws. -/

namespace Sys2Proof.Machine

/-! ## The field product -/

@[simp] theorem gfMultiply_zero_left (e : Vector Byte 512) (l : Vector Byte 256) (b : Byte) : gfMultiply e l 0#8 b = 0#8 := by
  simp [gfMultiply]

@[simp] theorem gfMultiply_zero_right (e : Vector Byte 512) (l : Vector Byte 256) (a : Byte) : gfMultiply e l a 0#8 = 0#8 := by
  simp [gfMultiply]

/-- The product does not depend on `LOG[0]`. -/
theorem gfMultiply_congr_log (e : Vector Byte 512) {l l' : Vector Byte 256}
    (h : ∀ x : Byte, x ≠ 0 → logAt l x = logAt l' x) (a b : Byte) : gfMultiply e l a b = gfMultiply e l' a b := by
  by_cases hz : a = 0 ∨ b = 0
  · rcases hz with rfl | rfl <;> simp
  · have hz' := not_or.mp hz
    simp only [gfMultiply, if_neg hz, h a hz'.1, h b hz'.2]

theorem rsStep_congr_log (e : Vector Byte 512) {l l' : Vector Byte 256}
    (h : ∀ x : Byte, x ≠ 0 → logAt l x = logAt l' x) (g c : Vector Byte 7) (d : Byte) :
    rsStep e l g c d = rsStep e l' g c d := by
  simp [rsStep, gfMultiply_congr_log e h]

theorem rsEncode_congr_log (e : Vector Byte 512) {l l' : Vector Byte 256}
    (h : ∀ x : Byte, x ≠ 0 → logAt l x = logAt l' x) (g : Vector Byte 7) (d : Vector Byte 19) :
    rsEncode e l g d = rsEncode e l' g d := by
  have : rsStep e l g = rsStep e l' g := by
    funext c d
    exact rsStep_congr_log e h g c d
  simp [rsEncode, this]

/-! ## The codeword assembler -/

@[simp] theorem length_emitByte (v : Byte) : (emitByte v).length = 8 := rfl

theorem length_flatMap_emitByte (p : List Byte) : (p.flatMap emitByte).length = 8 * p.length := by
  induction p with
  | nil => rfl
  | cons v p ih =>
    simp only [List.flatMap_cons, List.length_append, length_emitByte, List.length_cons, ih]
    omega

theorem length_headerBits (p : List Byte) : (headerBits p).length = 12 + 8 * p.length := by
  simp only [headerBits, List.length_append, length_emitByte, length_flatMap_emitByte, List.length_cons, List.length_nil]
  omega

theorem length_payload_le (t : List CodeUnit) : (payload t).length ≤ 17 := by
  simp [payload]

@[simp] theorem length_padBytes (n : Nat) : (padBytes n).length = n := by simp [padBytes]

/-- Whole bytes of bits pack to that many bytes. -/
theorem length_packBytes (n : Nat) (bits : List Bool) (h : bits.length = 8 * n) : (packBytes bits).length = n := by
  induction n generalizing bits with
  | zero => simp [List.eq_nil_of_length_eq_zero h, packBytes]
  | succ n ih =>
    match bits, h with
    | b7 :: b6 :: b5 :: b4 :: b3 :: b2 :: b1 :: b0 :: rest, h =>
      exact congrArg (· + 1) (ih rest (by simp only [List.length_cons] at h; omega))

/-- Before the pad bytes there are two bytes more than the payload has (R70). -/
theorem length_packedBits (p : List Byte) (hp : p.length ≤ 17) :
    (packBytes (alignBits (terminate (headerBits p)))).length = p.length + 2 := by
  have ht : (terminate (headerBits p)).length = 8 * (p.length + 2) := by
    simp only [terminate, List.length_append, List.length_replicate, length_headerBits, Config.DATABITS]
    omega
  refine length_packBytes _ _ ?_
  simp only [alignBits, List.length_append, List.length_replicate, ht]
  omega

/-- The data codewords are 19 for every text (R122). -/
@[simp] theorem length_assembleList (t : List CodeUnit) : (assembleList t).length = 19 := by
  have hp := length_payload_le t
  simp only [assembleList, List.length_append, length_padBytes, length_packedBits _ hp, Config.NDATA]
  omega

/-! ## Lists without repeats, by a set of numbers held as the bits of one -/

/-- The numbers of a list are distinct and none is a set bit of `seen`. -/
def allFresh : List Nat → (seen : Nat) → Bool
  | [], _ => true
  | n :: ns, seen => !seen.testBit n && allFresh ns (seen ||| 1 <<< n)

theorem nodup_of_allFresh {l : List Nat} {seen : Nat} (h : allFresh l seen = true) :
    l.Nodup ∧ ∀ n ∈ l, seen.testBit n = false := by
  induction l generalizing seen with
  | nil => simp
  | cons n ns ih =>
    simp only [allFresh, Bool.and_eq_true, Bool.not_eq_true'] at h
    obtain ⟨hd, hs⟩ := ih h.2
    have hn : n ∉ ns := fun hm => by simpa [Nat.testBit_or, Nat.one_shiftLeft] using hs n hm
    refine ⟨List.nodup_cons.mpr ⟨hn, hd⟩, fun k hk => ?_⟩
    rcases List.mem_cons.mp hk with rfl | hk
    · exact h.1
    · have := hs k hk
      simp only [Nat.testBit_or, Bool.or_eq_false_iff] at this
      exact this.1

/-- A cell's number on the read port. -/
def cellNumber (p : Pos) : Nat := 21 * p.row.val + p.col.val

theorem nodup_of_cellNumbers {l : List Pos} (h : allFresh (l.map cellNumber) 0 = true) : l.Nodup :=
  List.Nodup.of_map cellNumber (nodup_of_allFresh h).1

/-! ## The cells of the layout phases -/

/-- Every write of `FINDER` puts a finder cell's pattern into it. -/
theorem finderWrites_spec : ∀ w ∈ finderWrites, w.1.isFinder = true ∧ w.2 = functionCell w.1 := by decide +kernel

theorem finderWrites_nodup : (finderWrites.map Prod.fst).Nodup := nodup_of_cellNumbers (by decide +kernel)

theorem mem_finderWrites : ∀ r c : Fin 21, Pos.isFinder ⟨r, c⟩ = true → (⟨r, c⟩ : Pos) ∈ finderWrites.map Prod.fst := by
  decide +kernel

theorem timingWrites_spec : ∀ w ∈ timingWrites, w.1.isTiming = true ∧ w.2 = functionCell w.1 := by decide +kernel

theorem timingWrites_nodup : (timingWrites.map Prod.fst).Nodup := by decide +kernel

theorem mem_timingWrites : ∀ r c : Fin 21, Pos.isTiming ⟨r, c⟩ = true → (⟨r, c⟩ : Pos) ∈ timingWrites.map Prod.fst := by
  decide +kernel

/-- A run of writes with distinct cells, each of them `f` of its cell, leaves `f` in exactly those cells. -/
theorem look_write_of_spec {α : Type} {ws : List (Pos × α)} {f : Pos → α} (hd : (ws.map Prod.fst).Nodup)
    (hf : ∀ w ∈ ws, w.2 = f w.1) (g : Grid α) (p : Pos) :
    (g.write ws).look p = if p ∈ ws.map Prod.fst then f p else g.look p := by
  split
  next h =>
    obtain ⟨w, hw, rfl⟩ := List.mem_map.mp h
    exact Grid.look_write_of_mem ws g hd (by rw [← hf w hw]; exact hw)
  next h => exact Grid.look_write_of_not_mem ws g h

/-- The grid after `FINDER`'s writes, cell by cell. -/
theorem look_write_finderWrites (g : Grid Cell) (p : Pos) :
    (g.write finderWrites).look p = if p.isFinder then functionCell p else g.look p := by
  rw [look_write_of_spec finderWrites_nodup (fun w hw => (finderWrites_spec w hw).2)]
  by_cases h : p.isFinder = true
  · simp only [if_pos h, if_pos (mem_finderWrites p.row p.col h)]
  · have : p ∉ finderWrites.map Prod.fst := by
      intro hm
      obtain ⟨w, hw, rfl⟩ := List.mem_map.mp hm
      exact h (finderWrites_spec w hw).1
    simp only [if_neg h, if_neg this]

/-- The grid after `TIMING`'s writes, cell by cell. -/
theorem look_write_timingWrites (g : Grid Cell) (p : Pos) :
    (g.write timingWrites).look p = if p.isTiming then functionCell p else g.look p := by
  rw [look_write_of_spec timingWrites_nodup (fun w hw => (timingWrites_spec w hw).2)]
  by_cases h : p.isTiming = true
  · simp only [if_pos h, if_pos (mem_timingWrites p.row p.col h)]
  · have : p ∉ timingWrites.map Prod.fst := by
      intro hm
      obtain ⟨w, hw, rfl⟩ := List.mem_map.mp hm
      exact h (timingWrites_spec w hw).1
    simp only [if_neg h, if_neg this]

/-- The grid after `DARKMOD`'s write, cell by cell. -/
theorem look_write_darkmodWrites (g : Grid Cell) (p : Pos) :
    (g.write darkmodWrites).look p = if p.isDarkModule then .dark else g.look p := by
  simp [darkmodWrites, Grid.look_put, Pos.isDarkModule, eq_comm]

/-- No cell is visited twice. -/
theorem walk_nodup : walk.Nodup := nodup_of_cellNumbers (by decide +kernel)

/-- The cells `PLACE` writes are those of the walk that are not reserved, in the walk's order. -/
theorem placeWrites_cells (rsv : Grid Bool) (bit : Nat → Bool) :
    (placeWrites rsv bit).map Prod.fst = walk.filter fun p => !rsv.look p := by
  simp [placeWrites, List.map_map, Function.comp_def, List.zipIdx_map_fst]

theorem placeWrites_nodup (rsv : Grid Bool) (bit : Nat → Bool) : ((placeWrites rsv bit).map Prod.fst).Nodup := by
  rw [placeWrites_cells]
  exact walk_nodup.filter _

/-- The cells `FMTWRITE` writes are those of the two sequences. -/
theorem mem_fmtWrites_cells (a b : Vector Pos 15) (fmt : BitVec 15) (p : Pos) :
    p ∈ (fmtWrites a b fmt).map Prod.fst ↔ p ∈ a.toList ++ b.toList := by
  simp only [fmtWrites, List.map_flatMap, List.mem_flatMap, List.mem_finRange, true_and, List.map_cons, List.map_nil,
    List.mem_cons, List.not_mem_nil, or_false, List.mem_append, Vector.mem_toList_iff]
  constructor
  · rintro ⟨s, rfl | rfl⟩
    · exact .inl (Vector.getElem_mem _)
    · exact .inr (Vector.getElem_mem _)
  · rintro (h | h)
    · obtain ⟨i, hi, rfl⟩ := Vector.getElem_of_mem h
      exact ⟨⟨i, hi⟩, .inl rfl⟩
    · obtain ⟨i, hi, rfl⟩ := Vector.getElem_of_mem h
      exact ⟨⟨i, hi⟩, .inr rfl⟩

/-- A finalized grid, cell by cell. -/
@[simp] theorem look_finalizeGrid (g : Grid Cell) (p : Pos) :
    (finalizeGrid g).look p = if g.look p = .unset then .light else g.look p := by
  simp [finalizeGrid]

/-! ## The renderer -/

/-- The drawn cells are the `Dark` ones. -/
@[simp] theorem mem_darkCells (g : Grid Cell) (p : Pos) : p ∈ darkCells g ↔ g.look p = .dark := by
  simp [darkCells]

@[simp] theorem length_rectangles (g : Grid Cell) (h : Nat) : (rectangles g h).length = (darkCells g).length := by
  simp [rectangles]

theorem length_darkCells_le (g : Grid Cell) : (darkCells g).length ≤ 441 := by
  have : Pos.all.length = 441 := by decide +kernel
  exact this ▸ List.length_filter_le _ _

/-- A module side of a 16-bit hint is between 1 and 2260 (R22). -/
theorem modulePx_bounds {h : Nat} (hh : h < 65536) : 1 ≤ modulePx h ∧ modulePx h ≤ 2260 := by
  simp only [modulePx, requestedPixels, Config.MINPIX, Config.TOTAL]
  omega

end Sys2Proof.Machine
end

