-- ==== Sys2Proof/Laws/PerInstr.lean ====
section
/-! SUPPORT. Facts about every command as syntax. Family `WordFields`: a command's word has the command's opcode in bits 31:24
and 0 in every bit its format reserves (R61, R63). -/

namespace Sys2Proof.Laws.WordFields

/-- The command's own name. -/
def nameOf : Instr → Mnemonic
  | .nop => .nop
  | .gfexp _ => .gfexp
  | .gflog _ => .gflog
  | .gfmul _ _ => .gfmul
  | .txclr => .txclr
  | .txpush _ => .txpush
  | .assemble => .assemble
  | .rsenc => .rsenc
  | .gridclr => .gridclr
  | .finder => .finder
  | .timing => .timing
  | .darkmod => .darkmod
  | .reserve => .reserve
  | .place => .place
  | .fmtwrite => .fmtwrite
  | .finalize => .finalize
  | .fmtenc _ _ => .fmtenc
  | .sethint _ => .sethint
  | .render => .render
  | .encode => .encode

/-- The opcode is in its place and the reserved bits are 0. -/
def Statement (i : Instr) : Prop :=
  opField (Sys2Proof.encode i) = (nameOf i).opcode ∧ Sys2Proof.encode i &&& (nameOf i).format.reservedBits = 0

/-- Two words have no bit in common when every bit of one is 0 in the other. -/
theorem and_eq_zero_of_bits {w m : Word} (h : ∀ i < 32, m.getLsbD i = true → w.getLsbD i = false) : w &&& m = 0 := by
  apply BitVec.eq_of_getLsbD_eq
  intro i hi
  have := h i hi
  cases hm : m.getLsbD i <;> simp_all

theorem nop : Statement .nop := by unfold Statement; decide
theorem txclr : Statement .txclr := by unfold Statement; decide
theorem assemble : Statement .assemble := by unfold Statement; decide
theorem rsenc : Statement .rsenc := by unfold Statement; decide
theorem gridclr : Statement .gridclr := by unfold Statement; decide
theorem finder : Statement .finder := by unfold Statement; decide
theorem timing : Statement .timing := by unfold Statement; decide
theorem darkmod : Statement .darkmod := by unfold Statement; decide
theorem reserve : Statement .reserve := by unfold Statement; decide
theorem place : Statement .place := by unfold Statement; decide
theorem fmtwrite : Statement .fmtwrite := by unfold Statement; decide
theorem finalize : Statement .finalize := by unfold Statement; decide
theorem render : Statement .render := by unfold Statement; decide
theorem encode : Statement .encode := by unfold Statement; decide

theorem gfexp (idx : BitVec 9) : Statement (.gfexp idx) := by
  constructor
  · apply BitVec.eq_of_getLsbD_eq
    intro i hi
    interval_cases i <;>
      simp [opField, Sys2Proof.encode, wordI9, wordZ, nameOf, Mnemonic.opcode]
  · apply and_eq_zero_of_bits
    intro i hi hm
    interval_cases i <;> first
      | (simp [Mnemonic.format, nameOf, Format.reservedBits] at hm; done)
      | simp [Sys2Proof.encode, wordI9, wordZ, Mnemonic.opcode]

theorem gflog (a : Byte) : Statement (.gflog a) := by
  constructor
  · apply BitVec.eq_of_getLsbD_eq
    intro i hi
    interval_cases i <;>
      simp [opField, Sys2Proof.encode, wordA, wordZ, nameOf, Mnemonic.opcode]
  · apply and_eq_zero_of_bits
    intro i hi hm
    interval_cases i <;> first
      | (simp [Mnemonic.format, nameOf, Format.reservedBits] at hm; done)
      | simp [Sys2Proof.encode, wordA, wordZ, Mnemonic.opcode]

theorem gfmul (a b : Byte) : Statement (.gfmul a b) := by
  constructor
  · apply BitVec.eq_of_getLsbD_eq
    intro i hi
    interval_cases i <;>
      simp [opField, Sys2Proof.encode, wordAB, wordZ, nameOf, Mnemonic.opcode]
  · apply and_eq_zero_of_bits
    intro i hi hm
    interval_cases i <;> first
      | (simp [Mnemonic.format, nameOf, Format.reservedBits] at hm; done)
      | simp [Sys2Proof.encode, wordAB, wordZ, Mnemonic.opcode]

theorem txpush (imm : CodeUnit) : Statement (.txpush imm) := by
  constructor
  · apply BitVec.eq_of_getLsbD_eq
    intro i hi
    interval_cases i <;>
      simp [opField, Sys2Proof.encode, wordI16, wordZ, nameOf, Mnemonic.opcode]
  · apply and_eq_zero_of_bits
    intro i hi hm
    interval_cases i <;> first
      | (simp [Mnemonic.format, nameOf, Format.reservedBits] at hm; done)
      | simp [Sys2Proof.encode, wordI16, wordZ, Mnemonic.opcode]

theorem fmtenc (ec : BitVec 2) (mask : BitVec 3) : Statement (.fmtenc ec mask) := by
  constructor
  · apply BitVec.eq_of_getLsbD_eq
    intro i hi
    interval_cases i <;>
      simp [opField, Sys2Proof.encode, wordF, wordZ, nameOf, Mnemonic.opcode]
  · apply and_eq_zero_of_bits
    intro i hi hm
    interval_cases i <;> first
      | (simp [Mnemonic.format, nameOf, Format.reservedBits] at hm; done)
      | simp [Sys2Proof.encode, wordF, wordZ, Mnemonic.opcode]

theorem sethint (imm : Nat) : Statement (.sethint imm) := by
  constructor
  · apply BitVec.eq_of_getLsbD_eq
    intro i hi
    interval_cases i <;>
      simp [opField, Sys2Proof.encode, wordI16, wordZ, nameOf, Mnemonic.opcode]
  · apply and_eq_zero_of_bits
    intro i hi hm
    interval_cases i <;> first
      | (simp [Mnemonic.format, nameOf, Format.reservedBits] at hm; done)
      | simp [Sys2Proof.encode, wordI16, wordZ, Mnemonic.opcode]

end Sys2Proof.Laws.WordFields
end

