-- ==== Sys2Proof/Tests/Slice0.lean ====
section
/-! SUPPORT. The model's own tests. Expected values are the spec's: the command rules' examples and the vectors V1 to V95 of
spec/95_test_vectors.md, named in each test. Then one witness for each statement that has hypotheses. -/

namespace Sys2Proof.Tests

/-! The closed facts below are checked one at a time: the kernel's evaluations then share their memory. -/

set_option Elab.async false

open Sys2Proof Sys2Proof.Machine

/-! ## Helpers -/

/-- The state a command leaves. -/
def after (i : Instr) (s : State) : State := match exec i s with | .next t => t | .fault _ => s | .refused _ => s

/-- The state one word leaves on the port of a core. -/
def afterWord (w : Word) (s : State) : State :=
  match step (s.withFetchWord 32 w.toNat) with | .next t => t | .fault _ => s | .refused _ => s

/-- The state one event leaves. -/
def afterEvent (e : HostEvent) (s : State) : State :=
  match step (s.setPort [e]) with | .next t => t | .fault _ => s | .refused _ => s

/-- A reset core whose code units have `cw` bits and whose hint has `hintW`. -/
def coreOfWidths (cw hintW : Nat) : State := State.resetWith { configDoc with cw := cw, hintW := hintW }

/-- The reset state in a given phase. -/
def inPhase (p : BitVec 3) : State := State.reset.setGrid State.reset.grid p

/-- A row of a grid as the test vectors write it: bit 20 is column 0, 1 is `Dark`. -/
def rowBits (r : Vector Cell 21) : Nat := r.toList.foldl (fun n c => 2 * n + (if c = .dark then 1 else 0)) 0

/-- A grid in row-hex. -/
def rowWords (g : Grid Cell) : List Nat := g.toList.map rowBits

/-- The text of a list of character codes. -/
def withText (t : List CodeUnit) : State := State.reset.setTxt t

/-- The data codewords of "A" (V22). -/
def dataOfA : Vector Byte 19 :=
  #v[0x40, 0x14, 0x10, 0xEC, 0x11, 0xEC, 0x11, 0xEC, 0x11, 0xEC, 0x11, 0xEC, 0x11, 0xEC, 0x11, 0xEC, 0x11, 0xEC, 0x11]

/-- The error-correction codewords of "A" under the default `GEN` (V22). -/
def eccOfA : Vector Byte 7 := #v[0x84, 0xEE, 0x55, 0x1A, 0x1F, 0xBF, 0x6B]

/-! ## Decoding: one word per command, written out from its row's encoding -/

theorem test_decode_nop : decode 0b00000000_00000000_00000000_00000000 = .ok .nop := by decide
theorem test_decode_gfexp : decode 0b00000010_00000000_00000001_00101101 = .ok (.gfexp 301) := by decide
theorem test_decode_gflog : decode 0b00000011_10001110_00000000_00000000 = .ok (.gflog 0x8E) := by decide
theorem test_decode_gfmul : decode 0b00000100_01010011_11001010_00000000 = .ok (.gfmul 0x53 0xCA) := by decide
theorem test_decode_txclr : decode 0b00010000_00000000_00000000_00000000 = .ok .txclr := by decide
theorem test_decode_txpush : decode 0b00010001_00000000_00001110_00000001 = .ok (.txpush 0x0E01) := by decide
theorem test_decode_assemble : decode 0b00010010_00000000_00000000_00000000 = .ok .assemble := by decide
theorem test_decode_rsenc : decode 0b00010011_00000000_00000000_00000000 = .ok .rsenc := by decide
theorem test_decode_gridclr : decode 0b00100000_00000000_00000000_00000000 = .ok .gridclr := by decide
theorem test_decode_finder : decode 0b00100001_00000000_00000000_00000000 = .ok .finder := by decide
theorem test_decode_timing : decode 0b00100010_00000000_00000000_00000000 = .ok .timing := by decide
theorem test_decode_darkmod : decode 0b00100011_00000000_00000000_00000000 = .ok .darkmod := by decide
theorem test_decode_reserve : decode 0b00100100_00000000_00000000_00000000 = .ok .reserve := by decide
theorem test_decode_place : decode 0b00100101_00000000_00000000_00000000 = .ok .place := by decide
theorem test_decode_fmtwrite : decode 0b00100110_00000000_00000000_00000000 = .ok .fmtwrite := by decide
theorem test_decode_finalize : decode 0b00100111_00000000_00000000_00000000 = .ok .finalize := by decide
theorem test_decode_fmtenc : decode 0b00101000_00000000_00000000_00010101 = .ok (.fmtenc 2 5) := by decide
theorem test_decode_sethint : decode 0b00110000_00000000_00000000_11001000 = .ok (.sethint 200) := by decide
theorem test_decode_render : decode 0b00110001_00000000_00000000_00000000 = .ok .render := by decide
theorem test_decode_encode : decode 0b00111111_00000000_00000000_00000000 = .ok .encode := by decide

/-- V81 to V85: what is refused, and why. -/
theorem test_decode_refused :
    [0x01000000, 0xFFFFFFFF, 0x12000001, 0x02000200, 0x28000020].map decode =
      [.error .illegalOpcode, .error .illegalOpcode, .error .reservedField, .error .reservedField, .error .reservedField] := by
  decide

theorem test_decodeTableWord :
    decodeTableWord 32 0x04530700 = some (.gfmul 0x53 0x07) ∧ decodeTableWord 32 0x01000000 = none := by decide

/-! ## Well-formedness: an ill-formed term for each check -/

theorem test_source_wellFormed : SourceCommand.wellFormed configDoc ⟨.gfmul, [0x02, 0x80]⟩ = true := by decide
theorem test_source_tooFewOperands : SourceCommand.wellFormed configDoc ⟨.gfmul, [0x02]⟩ = false := by decide
theorem test_source_tooManyOperands : SourceCommand.wellFormed configDoc ⟨.nop, [0]⟩ = false := by decide
theorem test_source_byteTooWide : SourceCommand.wellFormed configDoc ⟨.gflog, [256]⟩ = false := by decide
theorem test_source_secondByteTooWide : SourceCommand.wellFormed configDoc ⟨.gfmul, [255, 256]⟩ = false := by decide
theorem test_source_indexTooWide : SourceCommand.wellFormed configDoc ⟨.gfexp, [512]⟩ = false := by decide
theorem test_source_immediateTooWide : SourceCommand.wellFormed configDoc ⟨.txpush, [65536]⟩ = false := by decide
theorem test_source_hintTooWide : SourceCommand.wellFormed configDoc ⟨.sethint, [65536]⟩ = false := by decide
theorem test_source_levelTooWide : SourceCommand.wellFormed configDoc ⟨.fmtenc, [4, 0]⟩ = false := by decide
theorem test_source_maskTooWide : SourceCommand.wellFormed configDoc ⟨.fmtenc, [3, 8]⟩ = false := by decide

/-- The core's own widths bound a literal of `TXPUSH` and `SETHINT` (R66, R62). -/
theorem test_source_otherWidths :
    SourceCommand.wellFormed { configDoc with cw := 20 } ⟨.txpush, [0x10041]⟩ = true ∧
      SourceCommand.wellFormed { configDoc with cw := 8 } ⟨.txpush, [256]⟩ = false := by decide

/-- An operand above its field in the word, and above the core's width. -/
theorem test_instr_illFormed :
    Instr.wellFormed (.txpush 0x10000) = false ∧ Instr.wellFormed (.sethint 0x10000) = false ∧
      Instr.wellFormed (.txpush 0xFFFF) = true ∧ Instr.fits { configDoc with cw := 8 } (.txpush 0x100) = false ∧
      Instr.fits { configDoc with hintW := 4 } (.sethint 16) = false := by decide

/-- R6: at least 8 bits. -/
theorem test_config_unitTooNarrow : Config.unitWideEnough { configDoc with cw := 7 } = false := by decide

theorem test_config_wellFormed : configDoc.wellFormed = true ∧ configStd.wellFormed = true := by decide +kernel

/-- A function cell that is not reserved. -/
theorem test_config_freeFunctionCell :
    Config.functionCellsReserved { configDoc with reserved := Grid.fill false } = false := by decide +kernel

/-- A format cell used twice. -/
theorem test_config_repeatedFormatCell : Config.formatCellsDistinct { configDoc with fmtB := fmtA } = false := by
  decide +kernel

/-- A format cell that is a timing cell. -/
theorem test_config_formatCellOnTiming :
    Config.formatCellsReserved { configDoc with fmtA := fmtA.set 0 ⟨8, 6⟩ } = false := by decide +kernel

/-! ## Source text (R66) -/

theorem test_parse_command :
    parseLine [' ', 'G', 'F', 'M', 'U', 'L', ' ', '0', 'x', '0', '2', ',', ' ', '1', '2', '8', ' ', ';', 'x'] =
      some (.command ⟨.gfmul, [2, 128]⟩) := by decide

theorem test_parse_txstr :
    parseLine ['T', 'X', 'S', 'T', 'R', ' ', '"', 'A', ';', '"'] = some (.txstr [0x41, 0x3B]) := by decide

theorem test_parse_layout :
    parseLine ['L', 'A', 'Y', 'O', 'U', 'T', ';', 'x'] = some .layout ∧ parseLine [';', 'x'] = some .blank ∧
      parseLine ['N', 'O', 'P', 'E'] = none ∧
      parseLine ['F', 'M', 'T', 'E', 'N', 'C', ' ', '0', 'b', '1', '1', ',', '7'] = some (.command ⟨.fmtenc, [3, 7]⟩) := by
  decide

/-- P2: the words of `TXSTR "A"`, `ASSEMBLE`, `RSENC`. -/
theorem test_program_words :
    programEvents configDoc [.txstr [0x41], .command ⟨.assemble, []⟩, .blank, .command ⟨.rsenc, []⟩] =
      some [.command 0x10000000, .command 0x11000041, .command 0x12000000, .command 0x13000000] := by decide

/-- R62: with another `CW` the code unit is an argument of the command. -/
theorem test_program_otherWidth :
    programEvents { configDoc with cw := 20 } [.txstr [0x41]] = some [.command 0x10000000, .txpush 0x41] := by decide

/-! ## One step of each command -/

theorem test_nop : (after .nop State.reset).status = State.reset.status := by decide

/-- V2. -/
theorem test_gfexp : (after (.gfexp 300) State.reset).res = 0xC1 ∧ (after (.gfexp 511) State.reset).res = 0x02 := by
  decide +kernel

/-- V3. -/
theorem test_gflog : (after (.gflog 0x53) State.reset).res = 206 ∧ (after (.gflog 1) State.reset).res = 255 := by
  decide +kernel

/-- V86. -/
theorem test_gflog_zero :
    (afterWord 0x03000000 State.reset).fault = .noValue ∧ (afterWord 0x03000000 State.reset).finfo = 0x03000000 ∧
      (afterWord 0x03000000 State.reset).status.resV = false := by decide +kernel

/-- V4. -/
theorem test_gfmul :
    (after (.gfmul 0x53 0xCA) State.reset).res = 0x8F ∧ (after (.gfmul 1 1) State.reset).res = 1 ∧
      (after (.gfmul 0 0x53) State.reset).res = 0 := by decide +kernel

/-- V95. -/
theorem test_gfmul_status :
    (after (.gfmul 0xFF 0xFF) State.reset).res = 0xE2 ∧ (after (.gfmul 0xFF 0xFF) State.reset).statusWord = 0x10 := by
  decide +kernel

theorem test_txclr : (after .txclr (withText [0x41, 0x42])).txn = 0 := by decide

theorem test_txpush : (after (.txpush 0x0E01) (withText [0x41])).txt = [0x41, 0x0E01] := by decide

/-- R62: a unit of 20 bits comes as an argument and is stored whole; one of 8 bits has no bit above 7. -/
theorem test_txpush_otherWidths :
    (afterEvent (.txpush 0x10041) (coreOfWidths 20 16)).txt = [0x10041] ∧
      (afterEvent (.command 0x11000041) (coreOfWidths 8 16)).txt = [0x41] ∧
      (afterEvent (.command 0x11000141) (coreOfWidths 8 16)).fault = .reservedField ∧
      (afterEvent (.command 0x11000141) (coreOfWidths 8 16)).finfo = 0x11000141 := by decide

/-- V22. -/
theorem test_assemble : (after .assemble (withText [0x41])).data = dataOfA := by decide +kernel

/-- V28: 25 code units count 17. -/
theorem test_assemble_truncates :
    (after .assemble (withText ((List.range 25).map (0x41 + ·)))).data.toList =
      [0x41, 0x14, 0x14, 0x24, 0x34, 0x44, 0x54, 0x64, 0x74, 0x84, 0x94, 0xA4, 0xB4, 0xC4, 0xD4, 0xE4, 0xF5, 0x05, 0x10] := by
  decide +kernel

/-- V22. -/
theorem test_rsenc : (after .rsenc (State.reset.setData dataOfA)).ecc = eccOfA := by decide +kernel

/-- V87. -/
theorem test_rsenc_noValue : (after .rsenc State.reset).fault = .noValue := by decide

theorem test_gridclr :
    (after .gridclr (State.reset.setGrid (Grid.fill .dark) 7)).grid = Grid.fill .unset ∧
      (after .gridclr (State.reset.setGrid (Grid.fill .dark) 7)).status.phase = 0 := by decide +kernel

/-- V30, the finder part. -/
theorem test_finder :
    rowWords (after .finder State.reset).grid =
      [0x1FC07F, 0x104041, 0x17405D, 0x17405D, 0x17405D, 0x104041, 0x1FC07F, 0, 0, 0, 0, 0, 0, 0, 0x1FC000, 0x104000, 0x174000,
        0x174000, 0x174000, 0x104000, 0x1FC000] := by decide +kernel

theorem test_finder_phaseOrder : (after .finder (inPhase 1)).fault = .phaseOrder := by decide

/-- V30, the timing part: row 6 is `.#.#.` in columns 8 to 12. -/
theorem test_timing :
    [8, 9, 10, 11, 12, 13].map (fun c => (after .timing (inPhase 1)).grid.look ⟨6, c⟩) =
      [.dark, .light, .dark, .light, .dark, .unset] ∧ (after .timing (inPhase 1)).grid.look ⟨9, 6⟩ = .light := by
  decide +kernel

theorem test_darkmod :
    (after .darkmod (inPhase 2)).grid.look ⟨13, 8⟩ = .dark ∧ (after .darkmod (inPhase 2)).grid.look ⟨8, 13⟩ = .unset := by
  decide +kernel

/-- R150's example and V31's count. -/
theorem test_reserve :
    [⟨8, 8⟩, ⟨9, 9⟩, ⟨8, 10⟩, ⟨20, 20⟩].map (after .reserve (inPhase 3)).rsv.look = [true, false, true, false] ∧
      Pos.all.countP (after .reserve (inPhase 3)).rsv.look = 255 := by decide +kernel

/-- A core ready for `PLACE` on "A". -/
def readyToPlace : State := ((State.reset.setData dataOfA).setEcc eccOfA).setRsv configDoc.reserved 4

/-- V34. The cell (20, 8) is reserved and stays `Unset`; (11, 0) takes stream bit 185 (V33), which is bit 6 of `ECC[4]` = 0x1F
(V22), a 0 where the mask is 0. -/
theorem test_place :
    [⟨20, 20⟩, ⟨20, 19⟩, ⟨19, 20⟩, ⟨19, 19⟩, ⟨20, 8⟩, ⟨11, 0⟩].map (after .place readyToPlace).grid.look =
      [.dark, .dark, .light, .dark, .unset, .light] := by decide +kernel

/-- V89. -/
theorem test_place_priority :
    (afterWord 0x25000000 State.reset).fault = .phaseOrder ∧ (afterWord 0x25000000 State.reset).finfo = 0x25000000 := by
  decide +kernel

/-- V35: row 8 is `###.##?##` in columns 0 to 8, the timing cell (8, 6) not drawn here, and `##...#..` in columns 13 to
20. -/
theorem test_fmtwrite :
    rowBits ((after .fmtwrite ((inPhase 5).setFmt 0x77C4)).grid[8]) = 0x1DB0C4 := by decide +kernel

theorem test_fmtwrite_noValue : (after .fmtwrite (inPhase 5)).fault = .noValue := by decide

theorem test_finalize :
    [⟨13, 8⟩, ⟨8, 10⟩].map (after .finalize ((inPhase 6).setGrid ((Grid.fill .unset).put ⟨13, 8⟩ .dark) 6)).grid.look =
      [.dark, .light] := by decide +kernel

/-- V40 to V44. -/
theorem test_fmtenc :
    [(1, 0), (0, 0), (3, 7), (0, 1), (2, 5)].map (fun v => (after (.fmtenc v.1 v.2) State.reset).fmt) =
      [0x77C4, 0x5412, 0x2BED, 0x5125, 0x0255] := by decide

/-- R183's table, row by row. -/
theorem test_format_words :
    ((List.range 32).map fun v => (encodeFormat (BitVec.ofNat 2 (v / 8)) (BitVec.ofNat 3 v)).toNat) =
      [0x5412, 0x5125, 0x5E7C, 0x5B4B, 0x45F9, 0x40CE, 0x4F97, 0x4AA0,
        0x77C4, 0x72F3, 0x7DAA, 0x789D, 0x662F, 0x6318, 0x6C41, 0x6976,
        0x1689, 0x13BE, 0x1CE7, 0x19D0, 0x0762, 0x0255, 0x0D0C, 0x083B,
        0x355F, 0x3068, 0x3F31, 0x3A06, 0x24B4, 0x2183, 0x2EDA, 0x2BED] := by decide +kernel

theorem test_sethint : (after (.sethint 200) State.reset).hint = 200 := by decide

theorem test_sethint_otherWidths :
    (afterEvent (.sethint 100000) (coreOfWidths 16 17)).hint = 100000 ∧
      (afterEvent (.command 0x30000010) (coreOfWidths 16 4)).fault = .reservedField := by decide

/-- V70. -/
theorem test_module_sizes :
    [0, 28, 43, 44, 72, 73, 101, 102, 200, 65535].map (fun h => (modulePx h, canvasSize h)) =
      [(1, 29), (1, 29), (1, 29), (2, 58), (2, 58), (3, 87), (3, 87), (4, 116), (7, 203), (2260, 65540)] := by decide

/-- V71, by one cell: at hint 200 the cell (0, 0) gives the rectangle 28, 28, 7, 7. -/
theorem test_render :
    (after .render ((State.reset.setGrid ((Grid.fill .light).put ⟨0, 0⟩ .dark) 7).setHint 200)).rect = [⟨28, 28, 7, 7⟩] := by
  decide +kernel

/-- V88. -/
theorem test_render_phaseOrder : (after .render State.reset).fault = .phaseOrder := by decide

/-- V52: the whole function on "A" under the default parameters. -/
theorem test_encode :
    rowWords (after .encode (withText [0x41])).grid =
      [0x1FC47F, 0x104841, 0x17525D, 0x174A5D, 0x174A5D, 0x104441, 0x1FD57F, 0x001000, 0x1DF0C4, 0x07AC46, 0x1C6511, 0x0F8844,
        0x004155, 0x001AAA, 0x1FDAEF, 0x105BB8, 0x1756ED, 0x174C46, 0x175D11, 0x105446, 0x1FDD57] := by decide +kernel

/-- P3: `STATUS` after the whole function. -/
theorem test_encode_status : (after .encode (withText [0x41])).statusWord = 0xEF := by decide +kernel

/-! ## The port -/

/-- V94: the first fault is kept. -/
theorem test_halted :
    (afterWord 0x02000008 (afterWord 0x25000000 State.reset)).fault = .phaseOrder ∧
      (afterWord 0x02000008 (afterWord 0x25000000 State.reset)).status.resV = false := by decide +kernel

/-- A reset leaves the halted state. -/
theorem test_reset_event :
    (match step ((State.reset.takeFault .noValue 0x13000000).setPort [.reset]) with
      | .next t => t.fault | .fault _ => .noValue | .refused _ => .noValue) = .none := by decide +kernel

/-- `STATUS`, `FAULT` and `FINFO` on the read port after V86, and a cell's codes (R19). -/
theorem test_hostRead :
    ([0, 1, 2].map fun k => hostRead (afterWord 0x03000000 State.reset) .csr k 0) = [0, 4, 0x03000000] ∧
      hostRead (State.reset.setGrid ((Grid.fill .light).put ⟨1, 2⟩ .dark) 7) .grid 23 0 = 1 := by decide +kernel

/-- R22 and R205: the widths of `MODPX`, `CANVAS` and `RECT` when `HINT_W` = 16. -/
theorem test_derivedWidths :
    [elementBits configDoc .csr 7, elementBits configDoc .csr 8, elementBits configDoc .rect 0] = [12, 17, 16] := by decide

/-! ## Witnesses: for each statement with hypotheses, a state and operands that meet them, one for each clause -/

/-- A core to which the host presents one word. -/
def presenting (w : Word) (s : State) : State := s.setPort [.command w]

/-- A core halted by `NoValue`. -/
def haltedCore : State := State.reset.takeFault .noValue 0x13000000

/-- A finalized grid: the function patterns, every other cell `Light`. -/
def finalizedCore : State :=
  (State.reset.setGrid (Grid.tabulate fun p => if p.isFunction then functionCell p else .light) 7).setRsv
    configDoc.reserved 7

/-- The core once `ASSEMBLE` ran on "A". -/
def assembledCore : State := assembleEffect (withText [0x41])

theorem reset_tablesOk : State.reset.TablesOk := ⟨rfl, fun _ _ => rfl, rfl⟩

theorem reset_resultsOk : State.reset.ResultsOk where
  txt := by decide
  hint := by decide
  data h := absurd h (by decide)
  ecc h := absurd h (by decide)
  fmt h := absurd h (by decide)
  phase h := absurd h (by decide)
  rend h := absurd h (by decide)

theorem finalized_resultsOk : finalizedCore.ResultsOk where
  txt := by decide
  hint := by decide
  data h := absurd h (by decide)
  ecc h := absurd h (by decide)
  fmt h := absurd h (by decide)
  phase h := absurd h (by decide)
  rend h := absurd h (by decide)

theorem assembled_resultsOk : assembledCore.ResultsOk where
  txt := by decide
  hint := by decide
  data _ := ⟨[0x41], rfl⟩
  ecc h := absurd h (by decide)
  fmt h := absurd h (by decide)
  phase h := absurd h (by decide)
  rend h := absurd h (by decide)

theorem finalized_gridOk : finalizedCore.GridOk where
  cells p := by
    show cellFits configDoc 7 p ((Grid.tabulate fun p => if p.isFunction then functionCell p else .light).look p)
    have h : ¬ 7 < functionPhase p := by unfold functionPhase; split <;> (try split) <;> omega
    rw [Grid.look_tabulate]
    unfold cellFits
    split <;> simp_all
  latch _ := rfl

theorem witness_DecodeOfEncodeIsTheCommand :
    Instr.wellFormed (.txpush 0xFFFF) = true ∧ Instr.wellFormed (.sethint 0) = true ∧ Instr.wellFormed .nop = true := by
  decide

theorem witness_EncodeOfDecodeIsTheWord : decode 0x04530700 = .ok (.gfmul 0x53 0x07) := by decide

theorem witness_LegalWordsAreTheTableRows :
    ((∃ i, decode 0x020001FF = .ok i) ∧ ∃ r ∈ tableRows, (0x020001FF : Word) &&& r.2 = r.1) ∧
      ¬ ∃ r ∈ tableRows, (0x02000200 : Word) &&& r.2 = r.1 := ⟨⟨⟨.gfexp 511, by decide⟩, by decide⟩, by decide⟩

theorem witness_OperandsAreFieldsOfTheWord :
    decode 0x020001FF = .ok (.gfexp 511) ∧ decode 0x03FF0000 = .ok (.gflog 255) ∧
      decode 0x04FF0100 = .ok (.gfmul 255 1) ∧ decode 0x1100FFFF = .ok (.txpush 0xFFFF) ∧
      decode 0x3000FFFE = .ok (.sethint 0xFFFE) ∧ decode 0x2800001E = .ok (.fmtenc 3 6) := by decide

theorem witness_StepRunsTheDecodedCommand :
    (presenting 0 State.reset).port = [.command 0] ∧ (presenting 0 State.reset).fault = .none ∧ decode 0 = .ok .nop := by
  decide

theorem witness_StepRunsTheDecodedCommand_argument :
    ((coreOfWidths 20 16).setPort [.txpush 0xFFFFF]).port = [.txpush 0xFFFFF] ∧ 0xFFFFF < 2 ^ (coreOfWidths 20 16).cfg.cw ∧
      ((coreOfWidths 16 4).setPort [.sethint 15]).port = [.sethint 15] ∧ 15 < 2 ^ (coreOfWidths 16 4).cfg.hintW ∧
      ((coreOfWidths 20 16).setPort [.txpush 0xFFFFF]).fault = .none := by decide

theorem witness_UnlistedOpcodesFault :
    ([0x01000000, 0x05000000, 0x0FFFFFFF, 0x14000000, 0x1F000000, 0x29000000, 0x2F000000, 0x32000000, 0x3E000000,
      0x40000000, 0xFFFFFFFF] : List Word).all (fun w => unlistedOpcode (w.toNat / 2 ^ 24)) = true ∧
    ([0x00000000, 0x02000000, 0x04000000, 0x10000000, 0x13000000, 0x20000000, 0x28000000, 0x30000000, 0x31000000,
      0x3F000000] : List Word).all (fun w => !unlistedOpcode (w.toNat / 2 ^ 24)) = true ∧
    (presenting 0xFFFFFFFF State.reset).port = [.command 0xFFFFFFFF] ∧
    (presenting 0xFFFFFFFF State.reset).fault = .none ∧
    step (presenting 0x3F000000 State.reset) = .next (encodeEffect (State.reset.setPort [])) :=
  ⟨by decide, by decide, rfl, rfl, rfl⟩

/-- Of `ReservedBitsFault`, and of the clause on reserved bits of each command's own statement. -/
theorem witness_ReservedBitsFault :
    reservedTable.all (fun r => (r.1.setWidth 32 <<< 24 ||| r.2).extractLsb' 24 8 == r.1 &&
      (r.1.setWidth 32 <<< 24 ||| r.2) &&& r.2 != 0) = true ∧
    (presenting 0x02FFFE00 State.reset).port = [.command 0x02FFFE00] ∧
    (presenting 0x02FFFE00 State.reset).fault = .none := ⟨by decide, rfl, rfl⟩

theorem witness_HaltedCoreDiscardsWords :
    (presenting 0x02000008 haltedCore).fault ≠ .none ∧ (presenting 0x02000008 haltedCore).port = [.command 0x02000008] ∧
      HostEvent.command 0x02000008 ≠ .reset ∧ HostEvent.txpush 0x41 ≠ .reset := by decide

theorem witness_OnlyResetLeavesTheHaltedState :
    (step (presenting 0x02000008 haltedCore) = .next (haltedCore.setPort []) ∧ haltedCore.fault ≠ .none) ∧
      (haltedCore.setPort [.reset]).port = [.reset] := ⟨⟨rfl, by decide⟩, rfl⟩

theorem witness_FaultEntryChangesOnlyTheFaultRegisters :
    (presenting 0x13000000 State.reset).port = [.command 0x13000000] ∧ State.reset.fault = .none ∧
      step (presenting 0x13000000 State.reset) = .next haltedCore ∧ haltedCore.fault ≠ .none :=
  ⟨rfl, rfl, rfl, by decide⟩

theorem witness_CommandsFaultExactlyOnPhaseAndValue :
    commandCause .place State.reset = .phaseOrder ∧ commandCause .place (inPhase 4) = .noValue ∧
      commandCause .place readyToPlace = .none ∧ Instr.fits State.reset.cfg (.txpush 0xFFFF) = true := by decide

theorem witness_OneCauseByPriority :
    (presenting 0x25000001 State.reset).port = [.command 0x25000001] ∧ wordCause 0x25000001 State.reset = .reservedField ∧
      wordCause 0x25000000 State.reset = .phaseOrder ∧ wordCause 0x01000001 haltedCore = .noValue ∧
      wordCause 0x01000001 State.reset = .illegalOpcode ∧ wordCause 0 State.reset = .none ∧
      (∀ i, decode 0x25000000 = .ok i → i.fits State.reset.cfg = true) :=
  ⟨by decide, by decide, by decide, by decide, by decide, by decide, fun i h => by cases h; rfl⟩

theorem witness_ToleratedInputsRaiseNoFault :
    exec .render finalizedCore = .next (renderEffect finalizedCore) ∧ finalizedCore.fault = .none ∧
      (renderEffect finalizedCore).fault = .none ∧ Instr.fits finalizedCore.cfg (.sethint 0xFFFF) = true :=
  ⟨rfl, rfl, rfl, by decide⟩

theorem witness_EveryStepAnswersANextState : State.reset.port = [] := rfl

theorem witness_HostReadsTheRegisters :
    haltedCore.fault ≠ .none ∧ (State.reset.setRes 0x1D).status.resV = true ∧ (State.reset.setFmt 0x77C4).status.fmtV = true ∧
      (renderEffect finalizedCore).status.rendV = true := ⟨by decide, rfl, rfl, rfl⟩

theorem witness_HostReadsTheRegisters_arrays :
    511 < 512 ∧ 1 ≤ 255 ∧ 255 < 256 ∧ (withText [0x41]).txt[0]? = some 0x41 ∧ assembledCore.status.dataV = true ∧
      readyToPlace.status.eccV = true ∧ 0 < (renderEffect finalizedCore).nrect.toNat ∧
      (renderEffect finalizedCore).rect[0]? = some ⟨4, 4, 1, 1⟩ := by decide +kernel

theorem witness_ResetGivesTheSummarizedState : (haltedCore.setPort [.reset, .command 0]).port = [.reset, .command 0] := rfl

theorem witness_ResetHasTheInvariants : configStd.wellFormed = true := test_config_wellFormed.2

theorem witness_ResetTablesAreConstructed : (1 : Byte) ≠ 0 ∧ (255 : Byte) ≠ 0 := by decide

theorem witness_TableFacts : 511 < 512 ∧ 1 ≤ 254 ∧ (1 : Byte) ≠ 0 := by decide

theorem witness_GfexpReadsAPowerOfAlpha : State.reset.TablesOk := reset_tablesOk

theorem witness_GflogReadsTheLogarithm :
    State.reset.TablesOk ∧ (0 : Byte) = 0 ∧ (1 : Byte) ≠ 0 ∧ (255 : Byte) ≠ 0 ∧ (255 : Byte) ≠ 1 :=
  ⟨reset_tablesOk, rfl, by decide, by decide, by decide⟩

theorem witness_GfmulIsTheFieldProduct :
    State.reset.TablesOk ∧ (0x53 : Byte) ≠ 0 ∧ (0xCA : Byte) ≠ 0 ∧
      (∀ x : Byte, x ≠ 0 → logAt (State.reset.log.set 0 0xAB) x = logAt State.reset.log x) := by
  refine ⟨reset_tablesOk, by decide, by decide, fun x hx => ?_⟩
  have h : x.toNat ≠ 0 := fun e => hx (BitVec.eq_of_toNat_eq e)
  simp [logAt, Ne.symm h]

theorem witness_FieldMultiplicationLaws :
    (2 : Byte) ≠ 0 ∧ gfMultiply expTable (logTable .ff) 2 0x8E = 1 := by decide +kernel

theorem witness_RsencComputesTheRemainder :
    State.reset.status.dataV = false ∧ assembledCore.status.dataV = true ∧ assembledCore.TablesOk :=
  ⟨rfl, rfl, rfl, fun _ _ => rfl, rfl⟩

theorem witness_RsEncodeIsLinear :
    rsEncode expTable (logTable .zero) genStd = rsEncode expTable (logTable .zero) genStd := rfl

theorem witness_AssembleLaysOutTheCodewords : 0 < 19 ∧ 18 < 19 := by decide

theorem witness_TxpushAppendsTheCodeUnit :
    17 ≤ (withText (List.replicate 17 0x41)).txt.length ∧ 0xFFFF < 2 ^ State.reset.cfg.cw ∧
      2 ^ (coreOfWidths 8 16).cfg.cw ≤ 0x100 := by decide

theorem witness_OnlyTheLowBytesAreAssembled : payloadValues [0x0141] = payloadValues [0x41] := by decide

theorem witness_OversizedTextIsTruncatedSilently :
    17 ≤ (withText (List.replicate 17 0x41)).txt.length ∧ 17 ≤ (withText (List.replicate 25 0x41)).txt.length := by decide

theorem witness_SendingATextLoadsIt :
    (State.reset.setPort (sent State.reset.cfg (expandTxstr [0x41, 0x42]) ++ [.reset])).port =
        sent State.reset.cfg (expandTxstr [0x41, 0x42]) ++ [.reset] ∧
      (State.reset.setPort (sent State.reset.cfg (expandTxstr [0x41, 0x42]) ++ [.reset])).fault = .none ∧
      ∀ x ∈ [0x41, 0x42], x < 2 ^ State.reset.cfg.cw := ⟨rfl, rfl, by decide⟩

/-- Of the clauses on `PHASE` of `FinderDrawsThreePatterns`, `TimingAlternates`, `DarkmodSetsOneCell`,
`ReserveLatchesThePredicate`, `PlaceWritesTheStream`, `FmtwriteWritesBothCopies`, `FinalizeLightsUnsetCells`,
`RenderMapsTheDarkCells` and `LayoutPhasesRunInOrder`. -/
theorem witness_phases :
    [0, 1, 2, 3, 4, 5, 6, 7].all (fun p => (inPhase p).status.phase = p && (inPhase (p + 1)).status.phase ≠ p) = true := by
  decide

theorem witness_TimingAlternates :
    8 ≤ (8 : Fin 21).val ∧ (12 : Fin 21).val ≤ 12 ∧ Pos.isTiming ⟨8, 6⟩ = true ∧ Pos.isTiming ⟨13, 6⟩ = false := by decide

theorem witness_DarkmodSetsOneCell : (⟨8, 13⟩ : Pos) ≠ ⟨13, 8⟩ := by decide

theorem witness_WalkVisitsInOrder : (⟨0, 20⟩ : Pos) ∈ walk ∧ (⟨20, 0⟩ : Pos) ∈ walk ∧ (⟨3, 6⟩ : Pos) ∉ walk := by
  decide +kernel

theorem witness_PlaceWritesTheStream :
    ((inPhase 4).status.phase = 4 ∧ (inPhase 4).status.dataV = false) ∧
      ((assembledCore.setRsv configDoc.reserved 4).status.phase = 4 ∧
        (assembledCore.setRsv configDoc.reserved 4).status.dataV = true ∧
        (assembledCore.setRsv configDoc.reserved 4).status.eccV = false) ∧
      readyToPlace.status.phase = 4 ∧ readyToPlace.status.dataV = true ∧ readyToPlace.status.eccV = true := by decide

theorem witness_FmtwriteWritesBothCopies :
    (inPhase 5).status.fmtV = false ∧ ((inPhase 5).setFmt 0x77C4).status.phase = 5 ∧
      ((inPhase 5).setFmt 0x77C4).status.fmtV = true ∧ configDoc.formatCells.Nodup ∧
      (⟨0, 0⟩ : Pos) ∉ configDoc.formatCells := by decide

theorem witness_FinalizeLightsUnsetCells :
    (inPhase 6).grid.look ⟨0, 0⟩ = .unset ∧ finalizedCore.grid.look ⟨0, 0⟩ ≠ .unset := by decide +kernel

/-- A core in phase 6: the function patterns, `Light` in the format cells and the cells that take a data bit, the rest
`Unset`. -/
def unfinalizedCore (c : Config) : State :=
  ((State.resetWith c).setGrid (Grid.tabulate fun p => if p.isFunction then functionCell p
    else if p ∈ c.formatCells ∨ takesBit c.reserved p then .light else .unset) 6).setRsv c.reserved 6

theorem unfinalized_gridOk (c : Config) : (unfinalizedCore c).GridOk where
  cells p := by
    show cellFits c 6 p ((Grid.tabulate fun p => if p.isFunction then functionCell p
      else if p ∈ c.formatCells ∨ takesBit c.reserved p then .light else .unset).look p)
    have h : ¬ 6 < functionPhase p := by unfold functionPhase; split <;> (try split) <;> omega
    rw [Grid.look_tabulate]
    unfold cellFits
    split
    · simp_all
    · split
      · simp_all
      · split <;> simp_all
  latch _ := rfl

theorem witness_LeftoverCellsBeforeFinalization :
    ((unfinalizedCore configDoc).GridOk ∧ (unfinalizedCore configDoc).status.phase = 6 ∧
        (unfinalizedCore configDoc).cfg = configDoc) ∧
      (unfinalizedCore configStd).GridOk ∧ (unfinalizedCore configStd).status.phase = 6 ∧
        (unfinalizedCore configStd).cfg = configStd :=
  ⟨⟨unfinalized_gridOk configDoc, rfl, rfl⟩, unfinalized_gridOk configStd, rfl, rfl⟩

theorem witness_LayoutPhasesRunInOrder :
    (readyToPlace.status.phase = 4 ∧ readyToPlace.status.dataV = true ∧ readyToPlace.status.eccV = true) ∧
      ((inPhase 5).setFmt 0).status.phase = 5 ∧ ((inPhase 5).setFmt 0).status.fmtV = true := by decide

theorem witness_WrittenCellsAreDisjoint :
    (⟨13, 8⟩ : Pos) ∈ (finderWrites ++ timingWrites ++ darkmodWrites ++ fmtWrites fmtA fmtB 0).map Prod.fst := by
  decide +kernel

theorem witness_FinalizedGridHasItsPatterns :
    finalizedCore.cfg.wellFormed = true ∧ finalizedCore.GridOk ∧ finalizedCore.status.phase = 7 :=
  ⟨test_config_wellFormed.1, finalized_gridOk, rfl⟩

theorem witness_FinalizedGridIsImmutable :
    finalizedCore.status.phase = 7 ∧ exec (.txpush 0x41) finalizedCore = .next (finalizedCore.setTxt [0x41]) := ⟨rfl, rfl⟩

theorem witness_GridclrAllocatesTheGrid :
    finalizedCore.status.phase = 7 ∧ exec .gridclr finalizedCore = .next (gridclrEffect finalizedCore) ∧
      (gridclrEffect finalizedCore).status.phase ≠ 7 := ⟨rfl, rfl, by decide⟩

theorem witness_SethintWritesTheHint :
    0xFFFF < 2 ^ State.reset.cfg.hintW ∧ 2 ^ (coreOfWidths 16 4).cfg.hintW ≤ 16 ∧ 0 ≤ 28 ∧
      exec .render { finalizedCore with hint := 28 } = .next (renderEffect { finalizedCore with hint := 28 }) :=
  ⟨by decide, by decide, by decide, rfl⟩

theorem witness_RenderMapsTheDarkCells : finalizedCore.status.phase = 7 ∧ State.reset.status.phase ≠ 7 := by decide

theorem witness_RenderIsIdempotentAndBounded :
    finalizedCore.cfg.wellFormed = true ∧ finalizedCore.GridOk ∧ finalizedCore.status.phase = 7 ∧
      exec .render finalizedCore = .next (renderEffect finalizedCore) ∧ finalizedCore.ResultsOk ∧
      finalizedCore.cfg.hintW = 16 :=
  ⟨test_config_wellFormed.1, finalized_gridOk, rfl, rfl, finalized_resultsOk, rfl⟩

theorem witness_RectanglesAreRowMajor :
    finalizedCore.status.phase = 7 ∧ exec .render finalizedCore = .next (renderEffect finalizedCore) := ⟨rfl, rfl⟩

theorem witness_EncodeIsItsTwelveCommands : State.reset.fault = .none := rfl

theorem witness_EncodeDependsOnPayloadAndHint :
    payloadValues (withText [0x0141]).txt = payloadValues ((withText [0x41]).setHint 28).txt ∧
      max 28 (withText [0x0141]).hint = max 28 ((withText [0x41]).setHint 28).hint ∧
      (withText [0x0141]).exp = ((withText [0x41]).setHint 28).exp ∧
      (withText [0x0141]).log = ((withText [0x41]).setHint 28).log ∧
      (withText [0x0141]).gen = ((withText [0x41]).setHint 28).gen ∧
      (withText [0x0141]).cfg = ((withText [0x41]).setHint 28).cfg ∧
      exec .encode (withText [0x0141]) = .next (encodeEffect (withText [0x0141])) ∧
      exec .encode ((withText [0x41]).setHint 28) = .next (encodeEffect ((withText [0x41]).setHint 28)) :=
  ⟨by decide, by decide, rfl, rfl, rfl, rfl, rfl, rfl⟩

theorem witness_EncodeTwiceIsEncodeOnce : exec .encode State.reset = .next (encodeEffect State.reset) := rfl

theorem witness_StepKeepsTheTables :
    (presenting 0x10000000 State.reset).TablesOk ∧
      step (presenting 0x10000000 State.reset) = .next ((State.reset.setPort []).setTxt []) :=
  ⟨⟨rfl, fun _ _ => rfl, rfl⟩, rfl⟩

theorem witness_StepKeepsTheResults :
    (presenting 0x13000000 assembledCore).ResultsOk ∧
      step (presenting 0x13000000 assembledCore) = .next (rsencEffect (assembledCore.setPort [])) where
  left := ⟨assembled_resultsOk.txt, assembled_resultsOk.hint, assembled_resultsOk.data, assembled_resultsOk.ecc, assembled_resultsOk.fmt, assembled_resultsOk.phase,
    assembled_resultsOk.rend⟩
  right := rfl

theorem witness_StepKeepsTheGrid :
    (presenting 0x20000000 finalizedCore).cfg.wellFormed = true ∧ (presenting 0x20000000 finalizedCore).GridOk ∧
      step (presenting 0x20000000 finalizedCore) = .next (gridclrEffect (finalizedCore.setPort [])) :=
  ⟨test_config_wellFormed.1, ⟨finalized_gridOk.cells, finalized_gridOk.latch⟩, rfl⟩

/-- Two different states that hold the same values. -/
theorem witness_NoValueIsNeverObserved :
    State.reset.SameValues { State.reset with res := 0x55 } ∧ State.reset ≠ { State.reset with res := 0x55 } := by
  refine ⟨?_, fun h => absurd (congrArg State.res h) (by decide)⟩
  constructor <;> first | rfl | (intro _ _; rfl) | (intro h; first | rfl | exact absurd h (by decide))

end Sys2Proof.Tests
end

namespace Sys2Proof.Machine

/-! ## `ENCODE` as one write

Every element `ENCODE` writes is computed from what it never writes: the tables, the generator, the text, the hint and the
parameters (R3, R201). The record form of its effect says so, and shows at once that a second `ENCODE` changes nothing. -/

/-- The grid before the data is placed: all function patterns on a cleared grid (R141 to R145). -/
def patternGrid : Grid Cell :=
  (((Grid.fill .unset).write finderWrites).write timingWrites).write darkmodWrites

/-- The finalized grid of a symbol with the given codewords, on a core with the given parameters (R155 to R157). -/
def symbolGrid (c : Config) (data : Vector Byte 19) (ecc : Vector Byte 7) : Grid Cell :=
  finalizeGrid ((patternGrid.write (placeWrites c.reserved (streamBit data ecc))).write
    (fmtWrites c.fmtA c.fmtB (encodeFormat c.ecL Config.MASK)))

/-- The layout part reads the codewords and the parameters only: the grid, the latch and `FMT` it starts from are overwritten. -/
theorem layoutEffect_eq (s : State) : layoutEffect s =
    { s with
      grid := symbolGrid s.cfg s.data s.ecc
      rsv := s.cfg.reserved
      fmt := encodeFormat s.cfg.ecL Config.MASK
      status := { s.status with fmtV := true, rendV := false, phase := 7 } } := by
  simp only [layoutEffect, gridclrEffect, finderEffect, timingEffect, darkmodEffect, reserveEffect, placeEffect, fmtencEffect,
    fmtwriteEffect, finalizeEffect, State.clearGrid, State.setGrid, State.setRsv, State.setFmt, Status.gridCleared,
    Status.atPhase, Status.fmtDone, symbolGrid, patternGrid]

/-- The seven error correction codewords of the core's text. -/
def State.symbolEcc (s : State) : Vector Byte 7 := rsEncode s.exp s.log s.gen (assemble s.txt)

/-- The finalized grid of the core's text. -/
def State.textGrid (s : State) : Grid Cell := symbolGrid s.cfg (assemble s.txt) s.symbolEcc

/-- `ENCODE` as one record update, each new value a function of the inputs (R201). -/
theorem encodeEffect_eq (s : State) : encodeEffect s =
    { s with
      data := assemble s.txt
      ecc := s.symbolEcc
      grid := s.textGrid
      rsv := s.cfg.reserved
      fmt := encodeFormat s.cfg.ecL Config.MASK
      modpx := modulePx s.hint
      canvas := canvasSize s.hint
      nrect := BitVec.ofNat 9 (darkCells s.textGrid).length
      rect := rectangles s.textGrid s.hint
      status := { dataV := true, eccV := true, fmtV := true, rendV := true, resV := s.status.resV, phase := 7 } } := by
  simp only [encodeEffect, layoutEffect_eq, assembleEffect, rsencEffect, renderEffect, State.setData, State.setEcc,
    State.setRender, Status.assembled, Status.eccDone, Status.rendered, State.symbolEcc, State.textGrid]

/-- The codewords are computed from the text and the tables, which `ENCODE` leaves (R41). -/
@[simp] theorem symbolEcc_encodeEffect (s : State) : (encodeEffect s).symbolEcc = s.symbolEcc := by
  simp only [State.symbolEcc, encodeEffect_eq s]

/-- The grid is computed from the codewords and the parameters, not from the grid before it (R141). -/
@[simp] theorem textGrid_encodeEffect (s : State) : (encodeEffect s).textGrid = s.textGrid := by
  simp only [State.textGrid, symbolEcc_encodeEffect]
  rw [encodeEffect_eq]

/-- A second `ENCODE` computes the same values and writes them over themselves (R3, R159). -/
theorem encodeEffect_encodeEffect (s : State) : encodeEffect (encodeEffect s) = encodeEffect s := by
  rw [encodeEffect_eq (encodeEffect s), symbolEcc_encodeEffect, textGrid_encodeEffect, encodeEffect_eq s]

/-- Settles O56: `ENCODE` always completes, and its effect is idempotent. -/
theorem encodeTwiceIsEncodeOnce : Obligations.EncodeTwiceIsEncodeOnce := by
  unfold Obligations.EncodeTwiceIsEncodeOnce
  intro s t h
  obtain rfl : encodeEffect s = t := Host.Outcome.next.inj h
  exact congrArg Host.Outcome.next (encodeEffect_encodeEffect s)

end Sys2Proof.Machine

namespace Sys2Proof.Machine

/-! ## The tables and the parameters are kept (R11 to R13, R41) -/

/-- `TablesOk` speaks of the tables and the parameters only. -/
theorem State.TablesOk.congr {s t : State} (h : s.TablesOk) (he : t.exp = s.exp) (hl : t.log = s.log) (hg : t.gen = s.gen)
    (hc : t.cfg = s.cfg) : t.TablesOk := by
  obtain ⟨hexp, hlog, hgen⟩ := h
  exact ⟨he.trans hexp, fun x hx => by rw [hl, hc, hlog x hx], by rw [hg, hc, hgen]⟩

theorem resetWith_tablesOk (c : Config) : (State.resetWith c).TablesOk := ⟨rfl, fun _ _ => rfl, rfl⟩

/-- Settles O57: a reset loads the constructed tables again, and no command writes a table or a parameter. -/
theorem stepKeepsTheTables : Obligations.StepKeepsTheTables := by
  unfold Obligations.StepKeepsTheTables
  intro s t hs h
  refine step_preserves (P := fun u => u.TablesOk ∧ u.cfg = s.cfg) ?_ ?_ ?_ ?_ ⟨hs, rfl⟩ h
  · exact fun u p ⟨hu, hc⟩ => ⟨hu.congr rfl rfl rfl rfl, hc⟩
  · exact fun u ⟨_, hc⟩ => ⟨(resetWith_tablesOk u.cfg).congr rfl rfl rfl rfl, hc⟩
  · exact fun u c w ⟨hu, hc⟩ => ⟨hu.congr rfl rfl rfl rfl, hc⟩
  · intro i u ⟨hu, hc⟩ _
    obtain ⟨hexp, hlog, hgen, hcfg, -⟩ := effectOf_inputs i u
    exact ⟨hu.congr hexp hlog hgen hcfg, hcfg.trans hc⟩

end Sys2Proof.Machine

namespace Sys2Proof.Machine

/-! ## What the validity flags promise

`ResultsOk` after each named update of the state, then after the effect of each command. -/

theorem resetWith_resultsOk (c : Config) : (State.resetWith c).ResultsOk where
  txt := by simp
  hint := Nat.two_pow_pos _
  data := by simp
  ecc := by simp
  fmt := by simp
  phase := by simp
  rend := by simp

namespace State.ResultsOk

variable {s : State}

theorem setPort (h : s.ResultsOk) (p : List HostEvent) : (s.setPort p).ResultsOk := { h with }

theorem takeFault (h : s.ResultsOk) (c : Cause) (w : Word) : (s.takeFault c w).ResultsOk := { h with }

theorem setRes (h : s.ResultsOk) (v : Byte) : (s.setRes v).ResultsOk := { h with }

theorem setTxt (h : s.ResultsOk) {t : List CodeUnit} (ht : ∀ u ∈ t, u < 2 ^ s.cfg.cw) : (s.setTxt t).ResultsOk :=
  { h with txt := ht }

/-- The rectangles stay valid: `REND_V` promises those of some hint, not of the current one (R190). -/
theorem setHint (h : s.ResultsOk) {n : Nat} (hn : n < 2 ^ s.cfg.hintW) : (s.setHint n).ResultsOk :=
  { h with hint := hn }

/-- New `DATA` makes `ECC` invalid, so `ECC_V` promises nothing of it (R123). -/
theorem setData (h : s.ResultsOk) {d : Vector Byte 19} (hd : ∃ t : List CodeUnit, d = assemble t) :
    (s.setData d).ResultsOk :=
  { h with data := fun _ => hd, ecc := by simp }

theorem setEcc (h : s.ResultsOk) (hd : s.status.dataV = true) :
    (s.setEcc (rsEncode s.exp s.log s.gen s.data)).ResultsOk :=
  { h with ecc := fun _ => ⟨hd, rfl⟩ }

theorem setFmt (h : s.ResultsOk) (ec : BitVec 2) (mask : BitVec 3) : (s.setFmt (encodeFormat ec mask)).ResultsOk :=
  { h with fmt := fun _ => ⟨ec, mask, rfl⟩ }

/-- Before phase 7 no rectangles are valid. -/
theorem rendV_eq_false (h : s.ResultsOk) (hp : s.status.phase ≠ 7) : s.status.rendV = false :=
  Bool.eq_false_iff.mpr fun hr => hp (h.phase hr)

/-- A layout command runs before phase 7, when there are no rectangles that the new grid could make wrong. -/
theorem setGrid (h : s.ResultsOk) (hp : s.status.phase ≠ 7) (g : Grid Cell) (p : BitVec 3) : (s.setGrid g p).ResultsOk :=
  { h with phase := by simp [h.rendV_eq_false hp], rend := by simp [h.rendV_eq_false hp] }

theorem setRsv (h : s.ResultsOk) (hp : s.status.phase ≠ 7) (r : Grid Bool) (p : BitVec 3) : (s.setRsv r p).ResultsOk :=
  { h with phase := by simp [h.rendV_eq_false hp], rend := by simp [h.rendV_eq_false hp] }

theorem clearGrid (h : s.ResultsOk) : s.clearGrid.ResultsOk :=
  { h with phase := by simp, rend := by simp }

end State.ResultsOk

/-- `NRECT` has room for the count of every grid: 441 is below 2^9 (R22). -/
theorem toNat_ofNat_length_darkCells (g : Grid Cell) :
    (BitVec.ofNat 9 (darkCells g).length).toNat = (darkCells g).length := by
  have := length_darkCells_le g
  simp only [BitVec.toNat_ofNat]
  omega

theorem State.ResultsOk.render {s : State} (h : s.ResultsOk) (hp : s.status.phase = 7) : (renderEffect s).ResultsOk :=
  { h with
    phase := fun _ => hp
    rend := fun _ => ⟨s.hint, h.hint, rfl, rfl, toNat_ofNat_length_darkCells s.grid, rfl⟩ }

theorem State.ResultsOk.rsenc {s : State} (h : s.ResultsOk) (hd : s.status.dataV = true) : (rsencEffect s).ResultsOk :=
  h.setEcc hd

theorem State.ResultsOk.assemble {s : State} (h : s.ResultsOk) : (assembleEffect s).ResultsOk := h.setData ⟨s.txt, rfl⟩

/-- The layout part of `ENCODE` by the named updates: each but the last grid it writes is overwritten. -/
theorem layoutEffect_updates (s : State) : layoutEffect s =
    ((s.clearGrid.setRsv s.cfg.reserved 4).setFmt (encodeFormat s.cfg.ecL Config.MASK)).setGrid
      (symbolGrid s.cfg s.data s.ecc) 7 := layoutEffect_eq s

/-- The layout part of `ENCODE` clears the rectangles and computes `FMT` (R201). -/
theorem State.ResultsOk.layout {s : State} (h : s.ResultsOk) : (layoutEffect s).ResultsOk := by
  rw [layoutEffect_updates]
  exact ((h.clearGrid.setRsv (by simp) _ 4).setFmt _ _).setGrid (by simp) _ 7

theorem layoutEffect_phase (s : State) : (layoutEffect s).status.phase = 7 := by simp [layoutEffect_updates]

/-- `ENCODE` renders the grid of codewords it has just computed from the text (R201). -/
theorem State.ResultsOk.encode {s : State} (h : s.ResultsOk) : (encodeEffect s).ResultsOk :=
  (h.assemble.rsenc rfl).layout.render (layoutEffect_phase _)

/-- A command of an early phase completes before phase 7. -/
theorem Completes.phase_ne_seven {i : Instr} {s : State} (hc : Completes i s) {p : BitVec 3}
    (hi : requiredPhase? i = some p) (hp : p ≠ 7) : s.status.phase ≠ 7 :=
  fun e => hp (hc.phase p hi ▸ e)

/-- Every command that completes keeps what the flags promise. -/
theorem State.ResultsOk.effectOf {i : Instr} {s : State} (h : s.ResultsOk) (hc : Completes i s) :
    (effectOf i s).ResultsOk := by
  cases i with
  | nop => exact h
  | gfexp idx => exact h.setRes _
  | gflog a => exact h.setRes _
  | gfmul a b => exact h.setRes _
  | txclr => exact h.setTxt (by simp)
  | txpush imm =>
    have himm : imm < 2 ^ s.cfg.cw := of_decide_eq_true hc.fits
    exact h.setTxt fun u hu => by
      rcases List.mem_append.mp hu with hu | hu
      · exact h.txt u hu
      · rwa [List.mem_singleton.mp hu]
  | assemble => exact h.assemble
  | rsenc => exact h.rsenc (by simpa [readsNoValue] using hc.value)
  | gridclr => exact h.clearGrid
  | finder => exact h.setGrid (hc.phase_ne_seven rfl (by decide)) _ _
  | timing => exact h.setGrid (hc.phase_ne_seven rfl (by decide)) _ _
  | darkmod => exact h.setGrid (hc.phase_ne_seven rfl (by decide)) _ _
  | reserve => exact h.setRsv (hc.phase_ne_seven rfl (by decide)) _ _
  | place => exact h.setGrid (hc.phase_ne_seven rfl (by decide)) _ _
  | fmtwrite => exact h.setGrid (hc.phase_ne_seven rfl (by decide)) _ _
  | finalize => exact h.setGrid (hc.phase_ne_seven rfl (by decide)) _ _
  | fmtenc ec mask => exact h.setFmt ec mask
  | sethint imm => exact h.setHint (of_decide_eq_true hc.fits)
  | render => exact h.render (hc.phase 7 rfl)
  | encode => exact h.encode

/-- Settles O58: reset clears every flag, a fault changes no element they speak of, and each effect keeps their promises. -/
theorem stepKeepsTheResults : Obligations.StepKeepsTheResults := by
  unfold Obligations.StepKeepsTheResults
  intro s t hs h
  exact step_preserves (P := State.ResultsOk) (fun _ p hu => hu.setPort p)
    (fun u _ => (resetWith_resultsOk u.cfg).setPort u.port) (fun _ c w hu => hu.takeFault c w)
    (fun _ _ hu hc => hu.effectOf hc) hs h

end Sys2Proof.Machine

namespace Sys2Proof.Machine

/-! ## The grid at each phase

`cellFits` read by the phase a cell is due in: until then it is `Unset`, from then on it is settled. A layout command then
has two things to show: it settles the cells that are due, and it keeps the others. -/

/-- The phase in which a cell takes its value: its pattern's, 6 for a format cell, 5 for a data cell, and 7 for a cell that
nothing but finalization writes (R24). -/
def duePhase (c : Config) (p : Pos) : Nat :=
  if p.isFunction then functionPhase p
  else if p ∈ c.formatCells then 6
  else if takesBit c.reserved p then 5
  else 7

/-- What a cell may hold once its phase is done. -/
def settled (c : Config) (p : Pos) (v : Cell) : Prop :=
  if duePhase c p < 5 then v = functionCell p
  else if duePhase c p < 7 then v ≠ .unset
  else v = .light

theorem functionPhase_le_three (p : Pos) : functionPhase p ≤ 3 := by
  unfold functionPhase
  split <;> [omega; split <;> omega]

theorem functionPhase_pos (p : Pos) : 0 < functionPhase p := by
  unfold functionPhase
  split <;> [omega; split <;> omega]

theorem cellFits_iff (c : Config) (n : Nat) (p : Pos) (v : Cell) :
    cellFits c n p v ↔ if n < duePhase c p then v = .unset else settled c p v := by
  have hle := functionPhase_le_three p
  unfold cellFits settled duePhase
  by_cases hfun : p.isFunction = true
  · have hlt : functionPhase p < 5 := by omega
    simp only [if_pos hfun, if_pos hlt]
    split <;> rfl
  · by_cases hfmt : p ∈ c.formatCells
    · simp [hfun, hfmt]
    · by_cases hbit : takesBit c.reserved p = true
      · simp [hfun, hfmt, hbit]
      · simp only [hfun, hfmt, hbit, if_false, Bool.false_eq_true, Nat.reduceLT]
        split <;> rfl

/-- Every cell of the grid is what phase `n` says it is. -/
def CellsFit (c : Config) (n : Nat) (g : Grid Cell) : Prop := ∀ p, cellFits c n p (g.look p)

theorem gridOk_iff (s : State) : s.GridOk ↔ CellsFit s.cfg s.status.phase.toNat s.grid ∧
    (4 ≤ s.status.phase.toNat → s.rsv = s.cfg.reserved) :=
  ⟨fun h => ⟨h.cells, h.latch⟩, fun h => ⟨h.1, h.2⟩⟩

/-- The grid of the next phase: the cells that are due are settled and the others are kept. -/
theorem CellsFit.advance {c : Config} {n : Nat} {g g' : Grid Cell} (h : CellsFit c n g)
    (hdue : ∀ p, duePhase c p = n + 1 → settled c p (g'.look p))
    (hkeep : ∀ p, duePhase c p ≠ n + 1 → g'.look p = g.look p) : CellsFit c (n + 1) g' := by
  intro p
  have hp := h p
  rw [cellFits_iff] at hp ⊢
  by_cases hd : duePhase c p = n + 1
  · rw [if_neg (by omega)]
    exact hdue p hd
  · rw [hkeep p hd]
    by_cases hn : n < duePhase c p
    · rw [if_pos hn] at hp
      rwa [if_pos (by omega)]
    · rw [if_neg hn] at hp
      rwa [if_neg (by omega)]

/-! ### The cells due in each phase -/

theorem isTiming_not_isFinder : ∀ r k : Fin 21, Pos.isTiming ⟨r, k⟩ = true → Pos.isFinder ⟨r, k⟩ = false := by
  decide +kernel

theorem functionPhase_eq_one_iff (p : Pos) : functionPhase p = 1 ↔ p.isFinder = true := by
  unfold functionPhase
  split <;> [simp_all; split <;> simp_all]

theorem functionPhase_eq_two_iff (p : Pos) : functionPhase p = 2 ↔ p.isTiming = true := by
  have hdisj : p.isTiming = true → p.isFinder = false := isTiming_not_isFinder p.row p.col
  unfold functionPhase
  split
  next h => simpa [h] using hdisj
  next => split <;> simp_all

theorem isDarkModule_iff (p : Pos) : p.isDarkModule = true ↔ p = Config.DARKMOD := by simp [Pos.isDarkModule]

theorem functionPhase_of_isDarkModule {p : Pos} (h : p.isDarkModule = true) : functionPhase p = 3 := by
  rw [(isDarkModule_iff p).mp h]
  decide

theorem isFunction_iff (p : Pos) : p.isFunction = true ↔
    functionPhase p = 1 ∨ functionPhase p = 2 ∨ p.isDarkModule = true := by
  simp [functionPhase_eq_one_iff, functionPhase_eq_two_iff, Pos.isFunction, or_assoc]

theorem duePhase_of_isFunction (c : Config) {p : Pos} (h : p.isFunction = true) : duePhase c p = functionPhase p := by
  simp [duePhase, h]

theorem five_le_duePhase (c : Config) {p : Pos} (h : p.isFunction = false) : 5 ≤ duePhase c p := by
  unfold duePhase
  simp only [h, Bool.false_eq_true, if_false]
  split <;> [omega; split <;> omega]

/-- Before phase 5 only cells of the function patterns are due. -/
theorem duePhase_eq_iff_functionPhase (c : Config) {n : Nat} (hn : n < 5) (p : Pos) :
    duePhase c p = n ↔ p.isFunction = true ∧ functionPhase p = n := by
  by_cases h : p.isFunction = true
  · simp [duePhase_of_isFunction c h, h]
  · have hle := five_le_duePhase c (Bool.eq_false_iff.mpr h)
    simp only [h, Bool.false_eq_true, false_and, iff_false]
    omega

theorem duePhase_eq_one_iff (c : Config) (p : Pos) : duePhase c p = 1 ↔ p.isFinder = true := by
  rw [duePhase_eq_iff_functionPhase c (by decide), isFunction_iff, ← functionPhase_eq_one_iff]
  exact ⟨And.right, fun h => ⟨.inl h, h⟩⟩

theorem duePhase_eq_two_iff (c : Config) (p : Pos) : duePhase c p = 2 ↔ p.isTiming = true := by
  rw [duePhase_eq_iff_functionPhase c (by decide), isFunction_iff, ← functionPhase_eq_two_iff]
  exact ⟨And.right, fun h => ⟨.inr (.inl h), h⟩⟩

theorem duePhase_eq_three_iff (c : Config) (p : Pos) : duePhase c p = 3 ↔ p.isDarkModule = true := by
  rw [duePhase_eq_iff_functionPhase c (by decide), isFunction_iff]
  refine ⟨?_, fun h => ⟨.inr (.inr h), functionPhase_of_isDarkModule h⟩⟩
  rintro ⟨h | h | h, h3⟩ <;> [omega; omega; exact h]

theorem duePhase_ne_four (c : Config) (p : Pos) : duePhase c p ≠ 4 := by
  rw [Ne, duePhase_eq_iff_functionPhase c (by decide), isFunction_iff]
  rintro ⟨h | h | h, h4⟩
  · omega
  · omega
  · have := functionPhase_of_isDarkModule h
    omega

/-- A well-formed configuration reserves the function cells, and reserves format cells away from them (R158). -/
theorem Config.wellFormed_cells {c : Config} (hwf : c.wellFormed = true) (p : Pos) :
    (p.isFunction = true → c.reservedAt p = true) ∧
    (p ∈ c.formatCells → c.reservedAt p = true ∧ p.isFunction = false) := by
  simp only [Config.wellFormed, Config.functionCellsReserved, Config.formatCellsReserved, Bool.and_eq_true,
    decide_eq_true_eq, List.all_eq_true, Bool.not_eq_true'] at hwf
  obtain ⟨⟨⟨hfun, -⟩, hfmt⟩, -⟩ := hwf
  exact ⟨hfun p.row p.col, hfmt p⟩

theorem reservedAt_of_takesBit {c : Config} {p : Pos} (h : takesBit c.reserved p = true) : c.reservedAt p = false := by
  simp only [takesBit, Bool.and_eq_true, Bool.not_eq_true'] at h
  exact h.1

theorem duePhase_eq_five_iff {c : Config} (hwf : c.wellFormed = true) (p : Pos) :
    duePhase c p = 5 ↔ takesBit c.reserved p = true := by
  have hle := functionPhase_le_three p
  obtain ⟨hfun, hfmt⟩ := Config.wellFormed_cells hwf p
  constructor
  · intro h
    unfold duePhase at h
    split at h
    · omega
    · split at h
      · omega
      · split at h <;> [assumption; omega]
  · intro h
    have hfree := reservedAt_of_takesBit h
    have hfun' : p.isFunction = false := Bool.eq_false_iff.mpr fun e => by simp [hfun e] at hfree
    have hfmt' : p ∉ c.formatCells := fun e => by simp [(hfmt e).1] at hfree
    simp [duePhase, hfun', hfmt', h]

theorem duePhase_eq_six_iff {c : Config} (hwf : c.wellFormed = true) (p : Pos) :
    duePhase c p = 6 ↔ p ∈ c.formatCells := by
  have hle := functionPhase_le_three p
  constructor
  · intro h
    unfold duePhase at h
    split at h
    · omega
    · split at h
      · assumption
      · split at h <;> omega
  · intro h
    have hfun : p.isFunction = false := ((Config.wellFormed_cells hwf p).2 h).2
    simp [duePhase, hfun, h]

theorem duePhase_le_seven (c : Config) (p : Pos) : duePhase c p ≤ 7 := by
  have hle := functionPhase_le_three p
  unfold duePhase
  split
  · omega
  · split <;> [omega; split <;> omega]

/-! ### One lemma per phase, on the grid alone -/

theorem functionCell_ne_unset (p : Pos) : functionCell p ≠ .unset := by
  unfold functionCell
  repeat' split
  all_goals simp

theorem settled_ne_unset {c : Config} {p : Pos} {v : Cell} (h : settled c p v) : v ≠ .unset := by
  unfold settled at h
  split at h
  · exact h ▸ functionCell_ne_unset p
  · split at h
    · exact h
    · simp [h]

theorem settled_functionCell {c : Config} {p : Pos} (hd : duePhase c p < 5) : settled c p (functionCell p) := by
  simp [settled, hd]

/-- A cell that takes a data or format bit is settled by any bit. -/
theorem settled_of_ne_unset {c : Config} {p : Pos} {v : Cell} (hd : duePhase c p = 5 ∨ duePhase c p = 6)
    (hv : v ≠ .unset) : settled c p v := by
  rcases hd with hd | hd <;> simpa [settled, hd] using hv

theorem settled_light {c : Config} {p : Pos} (hd : duePhase c p = 7) : settled c p .light := by simp [settled, hd]

/-- A cell that some write of a run names holds the element of one of the writes. -/
theorem look_write_of_forall {α : Type} {P : α → Prop} (ws : List (Pos × α)) (hP : ∀ w ∈ ws, P w.2) (g : Grid α) {p : Pos}
    (hp : p ∈ ws.map Prod.fst) : P ((g.write ws).look p) := by
  induction ws generalizing g with
  | nil => simp at hp
  | cons w ws ih =>
    rw [Grid.write_cons]
    by_cases hmem : p ∈ ws.map Prod.fst
    · exact ih (fun v hv => hP v (List.mem_cons_of_mem _ hv)) _ hmem
    · obtain rfl : p = w.1 := (List.mem_cons.mp hp).resolve_right hmem
      rw [Grid.look_write_of_not_mem ws _ hmem, Grid.look_put_same]
      exact hP w List.mem_cons_self

theorem cellOfBit_ne_unset (b : Bool) : cellOfBit b ≠ .unset := by cases b <;> simp [cellOfBit]

theorem placeWrites_ne_unset (rsv : Grid Bool) (bit : Nat → Bool) : ∀ w ∈ placeWrites rsv bit, w.2 ≠ .unset := by
  simp only [placeWrites, List.mem_map]
  rintro _ ⟨w, -, rfl⟩
  exact cellOfBit_ne_unset _

theorem fmtWrites_ne_unset (a b : Vector Pos 15) (fmt : BitVec 15) : ∀ w ∈ fmtWrites a b fmt, w.2 ≠ .unset := by
  simp only [fmtWrites, List.mem_flatMap, List.mem_cons, List.not_mem_nil, or_false]
  rintro _ ⟨k, -, rfl | rfl⟩ <;> exact cellOfBit_ne_unset _

/-- A pair of the walk visits its two columns whole, in either direction. -/
theorem mem_walkPair (col : Nat) (up : Bool) (p : Pos) :
    p ∈ walkPair col up ↔ p.col = Fin.ofNat 21 col ∨ p.col = Fin.ofNat 21 (col - 1) := by
  rcases p with ⟨r, k⟩
  simp only [walkPair, List.mem_flatMap, List.mem_finRange, true_and, List.mem_cons, List.not_mem_nil, or_false,
    Pos.mk.injEq]
  constructor
  · rintro ⟨i, ⟨-, h⟩ | ⟨-, h⟩⟩ <;> simp [h]
  · intro h
    refine ⟨if up then r.rev else r, ?_⟩
    cases up <;> simpa using h

/-- The ten pairs of the walk (R154). -/
theorem walk_eq_pairs : walk = walkPair 20 true ++ (walkPair 18 false ++ (walkPair 16 true ++ (walkPair 14 false ++
    (walkPair 12 true ++ (walkPair 10 false ++ (walkPair 8 true ++ (walkPair 5 false ++ (walkPair 3 true ++
      (walkPair 1 false ++ []))))))))) := rfl

/-- The walk visits every cell but those of column 6 (R154). -/
theorem mem_walk (p : Pos) : p ∈ walk ↔ p.col ≠ 6 := by
  have hcols : ∀ k : Fin 21, (k = 20 ∨ k = 19) ∨ (k = 18 ∨ k = 17) ∨ (k = 16 ∨ k = 15) ∨ (k = 14 ∨ k = 13) ∨
      (k = 12 ∨ k = 11) ∨ (k = 10 ∨ k = 9) ∨ (k = 8 ∨ k = 7) ∨ (k = 5 ∨ k = 4) ∨ (k = 3 ∨ k = 2) ∨ (k = 1 ∨ k = 0) ↔
      k ≠ 6 := by decide
  rw [← hcols, walk_eq_pairs]
  simp only [List.mem_append, mem_walkPair, List.not_mem_nil, or_false]
  rfl

theorem mem_placeWrites_cells (rsv : Grid Bool) (bit : Nat → Bool) (p : Pos) :
    p ∈ (placeWrites rsv bit).map Prod.fst ↔ takesBit rsv p = true := by
  simp [placeWrites_cells, takesBit, mem_walk, and_comm]

namespace CellsFit

variable {c : Config} {g : Grid Cell}

/-- `GRIDCLR`: no phase is done, and every cell is `Unset` (R141). -/
theorem cleared (c : Config) : CellsFit c 0 (Grid.fill .unset) := by
  intro p
  have hpos : 0 < duePhase c p := by
    by_cases h : p.isFunction = true
    · rw [duePhase_of_isFunction c h]
      exact functionPhase_pos p
    · have := five_le_duePhase c (Bool.eq_false_iff.mpr h)
      omega
  rw [cellFits_iff, if_pos hpos, Grid.look_fill]

theorem finder (h : CellsFit c 0 g) : CellsFit c 1 (g.write finderWrites) := by
  refine h.advance (fun p hd => ?_) (fun p hd => ?_)
  · have hp := (duePhase_eq_one_iff c p).mp hd
    rw [look_write_finderWrites, if_pos hp]
    exact settled_functionCell (by omega)
  · rw [look_write_finderWrites, if_neg (mt (duePhase_eq_one_iff c p).mpr hd)]

theorem timing (h : CellsFit c 1 g) : CellsFit c 2 (g.write timingWrites) := by
  refine h.advance (fun p hd => ?_) (fun p hd => ?_)
  · have hp := (duePhase_eq_two_iff c p).mp hd
    rw [look_write_timingWrites, if_pos hp]
    exact settled_functionCell (by omega)
  · rw [look_write_timingWrites, if_neg (mt (duePhase_eq_two_iff c p).mpr hd)]

theorem darkmod (h : CellsFit c 2 g) : CellsFit c 3 (g.write darkmodWrites) := by
  refine h.advance (fun p hd => ?_) (fun p hd => ?_)
  · have hp := (duePhase_eq_three_iff c p).mp hd
    have hv : functionCell p = .dark := by rw [(isDarkModule_iff p).mp hp]; decide
    rw [look_write_darkmodWrites, if_pos hp, ← hv]
    exact settled_functionCell (by omega)
  · rw [look_write_darkmodWrites, if_neg (mt (duePhase_eq_three_iff c p).mpr hd)]

/-- `RESERVE` leaves the grid, and no cell is due (R150). -/
theorem reserve (h : CellsFit c 3 g) : CellsFit c 4 g :=
  h.advance (fun p hd => absurd hd (duePhase_ne_four c p)) (fun _ _ => rfl)

theorem place (hwf : c.wellFormed = true) (h : CellsFit c 4 g) (bit : Nat → Bool) :
    CellsFit c 5 (g.write (placeWrites c.reserved bit)) := by
  have hcells (p : Pos) : p ∈ (placeWrites c.reserved bit).map Prod.fst ↔ duePhase c p = 5 := by
    rw [mem_placeWrites_cells, duePhase_eq_five_iff hwf]
  refine h.advance (fun p hd => ?_) (fun p hd => ?_)
  · exact settled_of_ne_unset (.inl hd)
      (look_write_of_forall (P := (· ≠ .unset)) _ (placeWrites_ne_unset _ _) g ((hcells p).mpr hd))
  · exact Grid.look_write_of_not_mem _ g (mt (hcells p).mp hd)

theorem fmtwrite (hwf : c.wellFormed = true) (h : CellsFit c 5 g) (fmt : BitVec 15) :
    CellsFit c 6 (g.write (fmtWrites c.fmtA c.fmtB fmt)) := by
  have hcells (p : Pos) : p ∈ (fmtWrites c.fmtA c.fmtB fmt).map Prod.fst ↔ duePhase c p = 6 := by
    rw [mem_fmtWrites_cells, duePhase_eq_six_iff hwf]
    rfl
  refine h.advance (fun p hd => ?_) (fun p hd => ?_)
  · exact settled_of_ne_unset (.inr hd)
      (look_write_of_forall (P := (· ≠ .unset)) _ (fmtWrites_ne_unset _ _ _) g ((hcells p).mpr hd))
  · exact Grid.look_write_of_not_mem _ g (mt (hcells p).mp hd)

/-- `FINALIZE`: the cells still `Unset` are those that nothing else writes; the others are settled and stay (R157). -/
theorem finalize (h : CellsFit c 6 g) : CellsFit c 7 (finalizeGrid g) := by
  refine h.advance (fun p hd => ?_) (fun p hd => ?_)
  · have hp := (cellFits_iff c 6 p _).mp (h p)
    rw [if_pos (by omega)] at hp
    rw [look_finalizeGrid, if_pos hp]
    exact settled_light hd
  · have hp := (cellFits_iff c 6 p _).mp (h p)
    have hle := duePhase_le_seven c p
    rw [if_neg (by omega)] at hp
    rw [look_finalizeGrid, if_neg (settled_ne_unset hp)]

/-- The grid `ENCODE` leaves passes through every phase (R201). -/
theorem symbolGrid (hwf : c.wellFormed = true) (data : Vector Byte 19) (ecc : Vector Byte 7) :
    CellsFit c 7 (symbolGrid c data ecc) :=
  (((cleared c).finder.timing.darkmod.reserve.place hwf _).fmtwrite hwf _).finalize

end CellsFit

/-! ### The invariant -/

theorem resetWith_gridOk (c : Config) : (State.resetWith c).GridOk :=
  (gridOk_iff _).mpr ⟨CellsFit.cleared c, by simp⟩

namespace State.GridOk

variable {s : State}

/-! `GridOk` speaks of the grid, the latch, the phase and the parameters only, so every update of another field keeps it. -/

theorem setPort (h : s.GridOk) (p : List HostEvent) : (s.setPort p).GridOk := { h with }

theorem takeFault (h : s.GridOk) (c : Cause) (w : Word) : (s.takeFault c w).GridOk := { h with }

theorem setRes (h : s.GridOk) (v : Byte) : (s.setRes v).GridOk := { h with }

theorem setTxt (h : s.GridOk) (t : List CodeUnit) : (s.setTxt t).GridOk := { h with }

theorem setHint (h : s.GridOk) (n : Nat) : (s.setHint n).GridOk := { h with }

theorem setData (h : s.GridOk) (d : Vector Byte 19) : (s.setData d).GridOk := { h with }

theorem setEcc (h : s.GridOk) (e : Vector Byte 7) : (s.setEcc e).GridOk := { h with }

theorem setFmt (h : s.GridOk) (f : BitVec 15) : (s.setFmt f).GridOk := { h with }

theorem setRender (h : s.GridOk) (m c : Nat) (n : BitVec 9) (r : List Rect) : (s.setRender m c n r).GridOk := { h with }

/-- The grid of a core in a known phase. -/
theorem cellsFit (h : s.GridOk) {p : BitVec 3} (hp : s.status.phase = p) :
    CellsFit s.cfg p.toNat s.grid := hp ▸ h.cells

/-- A layout command that writes the grid keeps the latch, which holds the predicate from phase 4 on (R150). -/
theorem setGrid {g : Grid Cell} {p : BitVec 3} (hg : CellsFit s.cfg p.toNat g)
    (hl : 4 ≤ p.toNat → s.rsv = s.cfg.reserved) : (s.setGrid g p).GridOk := ⟨hg, hl⟩

theorem encode (hwf : s.cfg.wellFormed = true) : (encodeEffect s).GridOk := by
  rw [encodeEffect_eq, gridOk_iff]
  exact ⟨CellsFit.symbolGrid hwf _ _, fun _ => rfl⟩

/-- Every command that completes keeps the grid what its phase says. -/
theorem effectOf {i : Instr} (hwf : s.cfg.wellFormed = true) (h : s.GridOk) (hc : Completes i s) :
    (effectOf i s).GridOk := by
  have hcells {p : BitVec 3} (hi : requiredPhase? i = some p) : CellsFit s.cfg p.toNat s.grid := h.cellsFit (hc.phase p hi)
  have hlatch {p : BitVec 3} (hi : requiredPhase? i = some p) (hp : 4 ≤ p.toNat) : s.rsv = s.cfg.reserved :=
    h.latch (by rwa [hc.phase p hi])
  cases i with
  | nop => exact h
  | gfexp idx => exact h.setRes _
  | gflog a => exact h.setRes _
  | gfmul a b => exact h.setRes _
  | txclr => exact h.setTxt _
  | txpush imm => exact h.setTxt _
  | assemble => exact h.setData _
  | rsenc => exact h.setEcc _
  | fmtenc ec mask => exact h.setFmt _
  | sethint imm => exact h.setHint _
  | render => exact h.setRender _ _ _ _
  | gridclr => exact ⟨CellsFit.cleared s.cfg, by simp [Machine.effectOf, gridclrEffect]⟩
  | finder => exact .setGrid (hcells rfl).finder (fun h => absurd h (by decide))
  | timing => exact .setGrid (hcells rfl).timing (fun h => absurd h (by decide))
  | darkmod => exact .setGrid (hcells rfl).darkmod (fun h => absurd h (by decide))
  | reserve => exact ⟨(hcells rfl).reserve, fun _ => rfl⟩
  | place =>
    have hrsv := hlatch rfl (by decide)
    exact .setGrid (hrsv ▸ (hcells rfl).place hwf _) fun _ => hrsv
  | fmtwrite => exact .setGrid ((hcells rfl).fmtwrite hwf s.fmt) fun _ => hlatch rfl (by decide)
  | finalize => exact .setGrid (hcells rfl).finalize fun _ => hlatch rfl (by decide)
  | encode => exact .encode hwf

end State.GridOk

/-- Settles O59, with the configuration, which no step changes, beside the grid. -/
theorem stepKeepsTheGrid : Obligations.StepKeepsTheGrid := by
  unfold Obligations.StepKeepsTheGrid
  intro s t hwf hs h
  refine (step_preserves (P := fun u => u.cfg.wellFormed = true ∧ u.GridOk) ?_ ?_ ?_ ?_ ⟨hwf, hs⟩ h).2
  · exact fun u p ⟨hc, hu⟩ => ⟨hc, hu.setPort p⟩
  · exact fun u ⟨hc, _⟩ => ⟨hc, (resetWith_gridOk u.cfg).setPort u.port⟩
  · exact fun u c w ⟨hc, hu⟩ => ⟨hc, hu.takeFault c w⟩
  · intro i u ⟨hc, hu⟩ hcompl
    obtain ⟨-, -, -, hcfg, -⟩ := effectOf_inputs i u
    exact ⟨hcfg ▸ hc, hu.effectOf hc hcompl⟩

end Sys2Proof.Machine

namespace Sys2Proof.Machine

/-! ## Elements without a value are never observed (R27)

`SameValues` after each named update of both states; then two runs of one command, check by check, answer related states. -/

namespace State.SameValues

theorem refl (s : State) : s.SameValues s := by
  constructor <;> simp

variable {s t : State}

theorem setPort (h : s.SameValues t) (p : List HostEvent) : (s.setPort p).SameValues (t.setPort p) :=
  { h with port := rfl }

theorem takeFault (h : s.SameValues t) (c : Cause) (w : Word) : (s.takeFault c w).SameValues (t.takeFault c w) :=
  { h with fault := rfl, finfo := fun _ => rfl }

theorem setRes (h : s.SameValues t) {v w : Byte} (e : v = w) : (s.setRes v).SameValues (t.setRes w) :=
  { h with res := fun _ => e, status := by simp [h.status] }

theorem setTxt (h : s.SameValues t) {l m : List CodeUnit} (e : l = m) : (s.setTxt l).SameValues (t.setTxt m) :=
  { h with txt := e }

theorem setHint (h : s.SameValues t) (n : Nat) : (s.setHint n).SameValues (t.setHint n) :=
  { h with hint := rfl }

theorem setData (h : s.SameValues t) {d d' : Vector Byte 19} (e : d = d') : (s.setData d).SameValues (t.setData d') :=
  { h with data := fun _ => e, ecc := by simp, status := by simp [h.status] }

theorem setEcc (h : s.SameValues t) {c c' : Vector Byte 7} (e : c = c') : (s.setEcc c).SameValues (t.setEcc c') :=
  { h with ecc := fun _ => e, status := by simp [h.status] }

theorem setFmt (h : s.SameValues t) {f f' : BitVec 15} (e : f = f') : (s.setFmt f).SameValues (t.setFmt f') :=
  { h with fmt := fun _ => e, status := by simp [h.status] }

theorem setGrid (h : s.SameValues t) {g g' : Grid Cell} (e : g = g') (p : BitVec 3) :
    (s.setGrid g p).SameValues (t.setGrid g' p) :=
  { h with grid := e, status := by simp [h.status] }

theorem setRsv (h : s.SameValues t) {r r' : Grid Bool} (e : r = r') (p : BitVec 3) :
    (s.setRsv r p).SameValues (t.setRsv r' p) :=
  { h with rsv := e, status := by simp [h.status] }

/-- The cleared core's rectangles hold no value, whatever stands in their fields (R141). -/
theorem clearGrid (h : s.SameValues t) : s.clearGrid.SameValues t.clearGrid :=
  { h with
    grid := rfl
    status := by simp [h.status]
    modpx := by simp
    canvas := by simp
    nrect := by simp
    rect := by simp }

theorem resetCore (h : s.SameValues t) : s.resetCore.SameValues t.resetCore := by
  simp only [State.resetCore, h.cfg, h.port]
  exact refl _

/-! ### The effects whose result is computed from elements that need a value -/

theorem rsencEffect (h : s.SameValues t) (hd : s.status.dataV = true) :
    (Machine.rsencEffect s).SameValues (Machine.rsencEffect t) :=
  h.setEcc (by rw [h.exp, h.gen, h.data hd, rsEncode_congr_log t.exp h.log])

theorem assembleEffect (h : s.SameValues t) : (Machine.assembleEffect s).SameValues (Machine.assembleEffect t) :=
  h.setData (by rw [h.txt])

theorem placeEffect (h : s.SameValues t) (hd : s.status.dataV = true) (he : s.status.eccV = true) :
    (Machine.placeEffect s).SameValues (Machine.placeEffect t) :=
  h.setGrid (by rw [h.grid, h.rsv, h.data hd, h.ecc he]) _

theorem fmtwriteEffect (h : s.SameValues t) (hf : s.status.fmtV = true) :
    (Machine.fmtwriteEffect s).SameValues (Machine.fmtwriteEffect t) :=
  h.setGrid (by rw [h.grid, h.cfg, h.fmt hf]) _

theorem renderEffect (h : s.SameValues t) : (Machine.renderEffect s).SameValues (Machine.renderEffect t) :=
  { h with
    modpx := fun _ => congrArg modulePx h.hint
    canvas := fun _ => congrArg canvasSize h.hint
    nrect := fun _ => by simp [Machine.renderEffect, h.grid]
    rect := fun _ => by simp [Machine.renderEffect, h.grid, h.hint]
    status := by simp [Machine.renderEffect, h.status] }

theorem layoutEffect (h : s.SameValues t) (hd : s.status.dataV = true) (he : s.status.eccV = true) :
    (Machine.layoutEffect s).SameValues (Machine.layoutEffect t) := by
  rw [layoutEffect_updates s, layoutEffect_updates t]
  exact ((h.clearGrid.setRsv (by rw [h.cfg]) 4).setFmt (by rw [h.cfg])).setGrid (by rw [h.cfg, h.data hd, h.ecc he]) 7

/-- `ENCODE` writes `DATA` and `ECC` before it reads them (R201). -/
theorem encodeEffect (h : s.SameValues t) : (Machine.encodeEffect s).SameValues (Machine.encodeEffect t) :=
  ((h.assembleEffect.rsencEffect rfl).layoutEffect rfl rfl).renderEffect

end State.SameValues

/-! ### Two runs -/

/-- Two answers are next states that agree but for elements without a value. -/
def SameAnswer (a b : Answer) : Prop := ∃ s t, a = .next s ∧ b = .next t ∧ s.SameValues t

namespace SameAnswer

variable {s t : State} {k k' : Answer}

theorem next (h : s.SameValues t) : SameAnswer (.next s) (.next t) := ⟨s, t, rfl, rfl, h⟩

theorem whenPhase (h : s.SameValues t) (p : BitVec 3) (i : Instr) (hk : SameAnswer k k') :
    SameAnswer (whenPhase p i s k) (whenPhase p i t k') := by
  unfold Machine.whenPhase
  rw [← h.status]
  split
  · exact hk
  · exact next (h.takeFault _ _)

theorem whenValue (h : s.SameValues t) {b b' : Bool} (hb : b = b') (i : Instr) (hk : b = true → SameAnswer k k') :
    SameAnswer (whenValue b i s k) (whenValue b' i t k') := by
  subst hb
  unfold Machine.whenValue
  split
  next hb => exact hk hb
  · exact next (h.takeFault _ _)

theorem whenFits (h : s.SameValues t) {n n' : Nat} (hn : n = n') (m : Nat) (i : Instr) (hk : SameAnswer k k') :
    SameAnswer (whenFits n m i s k) (whenFits n' m i t k') := by
  subst hn
  unfold Machine.whenFits
  split
  · exact hk
  · exact next (h.takeFault _ _)

/-- A command answers two such states alike: it reads an element only where the check before has found a value. -/
theorem exec (h : s.SameValues t) (i : Instr) : SameAnswer (exec i s) (exec i t) := by
  cases i with
  | nop => exact next h
  | gfexp idx => exact next (h.setRes (by rw [h.exp]))
  | gflog a =>
    exact whenValue h rfl _ fun ha => next (h.setRes (h.log a (of_decide_eq_true ha)))
  | gfmul a b => exact next (h.setRes (by rw [h.exp, gfMultiply_congr_log t.exp h.log]))
  | txclr => exact next (h.setTxt rfl)
  | txpush imm => exact whenFits h (by rw [h.cfg]) imm _ (next (h.setTxt (by rw [h.txt])))
  | assemble => exact next h.assembleEffect
  | rsenc => exact whenValue h (by rw [h.status]) _ fun hd => next (h.rsencEffect hd)
  | gridclr => exact next h.clearGrid
  | finder => exact whenPhase h 0 _ (next (h.setGrid (by rw [h.grid]) _))
  | timing => exact whenPhase h 1 _ (next (h.setGrid (by rw [h.grid]) _))
  | darkmod => exact whenPhase h 2 _ (next (h.setGrid (by rw [h.grid]) _))
  | reserve => exact whenPhase h 3 _ (next (h.setRsv (by rw [h.cfg]) _))
  | place =>
    refine whenPhase h 4 _ (whenValue h (by rw [h.status]) _ fun hv => ?_)
    obtain ⟨hd, he⟩ := Bool.and_eq_true_iff.mp hv
    exact next (h.placeEffect hd he)
  | fmtwrite => exact whenPhase h 5 _ (whenValue h (by rw [h.status]) _ fun hf => next (h.fmtwriteEffect hf))
  | finalize => exact whenPhase h 6 _ (next (h.setGrid (by rw [h.grid]) _))
  | fmtenc ec mask => exact next (h.setFmt rfl)
  | sethint imm => exact whenFits h (by rw [h.cfg]) imm _ (next (h.setHint imm))
  | render => exact whenPhase h 7 _ (next h.renderEffect)
  | encode => exact next h.encodeEffect

theorem acceptArgument (h : s.SameValues t) (i : Instr) : SameAnswer (acceptArgument i s) (acceptArgument i t) := by
  by_cases hf : s.fault = .none
  · rw [acceptArgument_running hf, acceptArgument_running (h.fault ▸ hf)]
    exact exec h i
  · rw [acceptArgument_halted hf, acceptArgument_halted (h.fault ▸ hf)]
    exact next h

theorem acceptWord (h : s.SameValues t) (w : Word) : SameAnswer (acceptWord w s) (acceptWord w t) := by
  by_cases hf : s.fault = .none
  · have hf' : t.fault = .none := h.fault ▸ hf
    cases hd : decode w with
    | error d =>
      rw [acceptWord_error hf hd, acceptWord_error hf' hd]
      exact next (h.takeFault _ w)
    | ok i =>
      rw [acceptWord_ok hf hd, acceptWord_ok hf' hd]
      exact exec h i
  · rw [acceptWord_halted hf, acceptWord_halted (h.fault ▸ hf)]
    exact next h

theorem acceptEvent (h : s.SameValues t) (e : HostEvent) : SameAnswer (acceptEvent e s) (acceptEvent e t) := by
  cases e with
  | command w => exact acceptWord h w
  | txpush imm =>
    unfold Machine.acceptEvent
    rw [h.cfg]
    exact acceptArgument h _
  | sethint imm =>
    unfold Machine.acceptEvent
    rw [h.cfg]
    exact acceptArgument h _
  | reset => exact next h.resetCore

theorem step (h : s.SameValues t) : SameAnswer (step s) (step t) := by
  unfold Machine.step takeEvent
  rw [← h.port]
  split
  · exact next h
  next e rest _ => exact acceptEvent (h.setPort rest) e

end SameAnswer

/-! ### Host reads -/

/-- Entry `x` of `LOG` by its operand. -/
theorem getElem?_log (l : Vector Byte 256) {x : Nat} (hx : x < 256) : l[x]? = some (logAt l (BitVec.ofNat 8 x)) := by
  simp [logAt, hx, Nat.mod_eq_of_lt hx]

theorem getElem?_log_congr {l l' : Vector Byte 256} (h : ∀ x : Byte, x ≠ 0 → logAt l x = logAt l' x) {x : Nat}
    (hx : x ≠ 0) : l[x]? = l'[x]? := by
  by_cases hlt : x < 256
  · have hne : BitVec.ofNat 8 x ≠ 0 := fun e => hx (by simpa [Nat.mod_eq_of_lt hlt] using congrArg BitVec.toNat e)
    rw [getElem?_log l hlt, getElem?_log l' hlt, h _ hne]
  · simp [hlt]

theorem whileValid_congr {b : Bool} {v w : Nat} (h : b = true → v = w) : whileValid b v = whileValid b w := by
  cases b
  · rfl
  · rw [h rfl]

namespace State.SameValues

variable {s t : State}

theorem csrElement? (h : s.SameValues t) (index : Nat) : csrElement? s index = csrElement? t index := by
  unfold Machine.csrElement?
  rw [← h.status]
  split
  · rw [State.statusWord, State.statusWord, h.status]
  · rw [State.faultWord, State.faultWord, h.fault]
  · rw [State.halted, State.halted, ← h.fault]
    exact whileValid_congr fun hf => by rw [h.finfo (of_decide_eq_true hf)]
  · rw [h.hint]
  · exact whileValid_congr fun hv => by rw [h.res hv]
  · rw [State.txn, State.txn, h.txt]
  · exact whileValid_congr fun hv => by rw [h.fmt hv]
  · exact whileValid_congr h.modpx
  · exact whileValid_congr h.canvas
  · exact whileValid_congr fun hv => by rw [h.nrect hv]
  · rfl

/-- The read port finds the same value in both where the element holds one, and none in either where it does not (R27). -/
theorem element? (h : s.SameValues t) (sp : Space) (index : Nat) : element? s sp index = element? t sp index := by
  cases sp with
  | csr => exact h.csrElement? index
  | exp => simp only [Machine.element?, h.exp]
  | log =>
    by_cases hi : index = 0
    · simp only [Machine.element?, if_pos hi]
    · simp only [Machine.element?, if_neg hi, getElem?_log_congr h.log hi]
  | gen => simp only [Machine.element?, h.gen]
  | txt => simp only [Machine.element?, h.txt]
  | data => exact ite_congr (by rw [h.status]) (fun hv => by rw [h.data (by rwa [h.status])]) fun _ => rfl
  | ecc => exact ite_congr (by rw [h.status]) (fun hv => by rw [h.ecc (by rwa [h.status])]) fun _ => rfl
  | grid => simp only [Machine.element?, h.grid]
  | rsv => simp only [Machine.element?, h.rsv]
  | rect =>
    refine ite_congr (by rw [h.status]) (fun hv => ?_) fun _ => rfl
    have hv' : s.status.rendV = true := by rwa [h.status]
    rw [rectElement?, rectElement?, h.nrect hv', h.rect hv']

end State.SameValues

/-- Settles O60: one step answers alike at every stage, and each element the host reads is the same or holds no value in both. -/
theorem noValueIsNeverObserved : Obligations.NoValueIsNeverObserved := by
  unfold Obligations.NoValueIsNeverObserved
  intro s t h
  refine ⟨fun s' hs => ?_, fun sp index draw => ?_⟩
  · obtain ⟨u, t', hu, ht, hsame⟩ := SameAnswer.step h
    obtain rfl : u = s' := Host.Outcome.next.inj (hu.symm.trans hs)
    exact ⟨t', ht, hsame⟩
  · rw [hostRead, hostRead, h.element?, h.cfg]

end Sys2Proof.Machine

namespace Sys2Proof.Machine

/-! ## What the host reads (R40) -/

/-- A read of an element that is there gives it, whatever is drawn. -/
theorem hostRead_of_element? {s : State} {sp : Space} {index v : Nat} (h : element? s sp index = some v) (draw : Nat) :
    hostRead s sp index draw = v := by
  simp [hostRead, h]

/-- A flag below the bits read so far (R24). -/
theorem toNat_append_ofBool {n : Nat} (x : BitVec n) (b : Bool) :
    (x ++ BitVec.ofBool b).toNat = 2 * x.toNat + b.toNat := by
  rw [BitVec.toNat_append, ← Nat.shiftLeft_add_eq_or_of_lt (BitVec.isLt _), Nat.shiftLeft_eq, BitVec.toNat_ofBool]
  omega

theorem statusWord_toNat (s : State) : s.statusWord.toNat =
    s.status.phase.toNat * 2 ^ 5 + s.status.resV.toNat * 2 ^ 4 + s.status.rendV.toNat * 2 ^ 3
      + s.status.fmtV.toNat * 2 ^ 2 + s.status.eccV.toNat * 2 + s.status.dataV.toNat := by
  simp only [State.statusWord, toNat_append_ofBool]
  omega

theorem faultWord_toNat (s : State) : s.faultWord.toNat = s.fault.code.toNat :=
  (BitVec.toNat_append ..).trans (by simp)

/-- An entry of a byte array as the read port gives it. -/
theorem getElem?_toNat {n : Nat} (v : Vector Byte n) {i : Nat} (hi : i < n) :
    (v[i]?).map (·.toNat) = some (v.toList.getD i 0).toNat := by
  simp [hi]

/-- The element of a cell's number (R40). -/
theorem gridElement?_cell {α : Type} (g : Grid α) (r c : Fin 21) :
    gridElement? g (21 * r.val + c.val) = some (g.look ⟨r, c⟩) := by
  have hlt : 21 * r.val + c.val < 441 := by omega
  have hr : (21 * r.val + c.val) / 21 = r.val := by omega
  have hc : (21 * r.val + c.val) % 21 = c.val := by omega
  simp only [gridElement?, dif_pos hlt, hr, hc]

/-- Field `f` of rectangle `i` (R40). -/
theorem rectElement?_field {s : State} {i f : Nat} {q : Rect} (hi : i < s.nrect.toNat) (hq : s.rect[i]? = some q)
    (hf : f < 4) : rectElement? s (4 * i + f) = some (rectField q f) := by
  have hdiv : (4 * i + f) / 4 = i := by omega
  have hmod : (4 * i + f) % 4 = f := by omega
  simp only [rectElement?, hdiv, hmod, if_pos hi, hq, Option.map_some]

theorem rectField_eq_getD (q : Rect) {f : Nat} (hf : f < 4) : rectField q f = [q.x, q.y, q.width, q.height].getD f 0 := by
  interval_cases f <;> rfl

/-- Settles O16, space by space. -/
theorem hostReadsTheRegisters : Obligations.HostReadsTheRegisters := by
  unfold Obligations.HostReadsTheRegisters
  intro s draw
  have read {sp : Space} {index v : Nat} (h : element? s sp index = some v) : hostRead s sp index draw = v :=
    hostRead_of_element? h draw
  have valid {b : Bool} (hb : b = true) (v : Nat) : whileValid b v = some v := if_pos hb
  refine ⟨?status, ?fault, ?finfo, read rfl, ?res, read rfl, ?fmt, ?render, ?exp, ?log, ?gen, fun i u hu => read hu, ?data, ?ecc,
    ?cells, ?rect, rfl⟩
  case status => exact read (congrArg some (statusWord_toNat s))
  case fault => exact read (congrArg some (faultWord_toNat s))
  case finfo => exact fun hf => read (valid (s.halted_eq_true.mpr hf) _)
  case res => exact fun hv => read (valid hv _)
  case fmt => exact fun hv => read (valid hv _)
  case render => exact fun hv => ⟨read (valid hv _), read (valid hv _), read (valid hv _)⟩
  case exp => exact fun i hi => read (getElem?_toNat s.exp hi)
  case log => exact fun x hx hlt => read ((if_neg (by omega)).trans (getElem?_toNat s.log hlt))
  case gen => exact fun i hi => read (getElem?_toNat s.gen hi)
  case data => exact fun hv i hi => read ((if_pos hv).trans (getElem?_toNat s.data hi))
  case ecc => exact fun hv i hi => read ((if_pos hv).trans (getElem?_toNat s.ecc hi))
  case cells =>
    intro r c
    constructor
    · rw [read (sp := .grid) (congrArg (Option.map cellCode) (gridElement?_cell s.grid r c))]
      cases s.grid.look ⟨r, c⟩ <;> rfl
    · rw [read (sp := .rsv) (congrArg (Option.map Bool.toNat) (gridElement?_cell s.rsv r c))]
      cases s.rsv.look ⟨r, c⟩ <;> rfl
  case rect =>
    intro hv i f q hi hq hf
    rw [← rectField_eq_getD q hf]
    exact read ((if_pos hv).trans (rectElement?_field hi hq hf))

end Sys2Proof.Machine

namespace Sys2Proof

/-! ## Words as numbers (R61, R62)

A format splits a word's number into the opcode, the operands and the reserved part: each field is a quotient and remainder of
the number, and a command's word is the sum of its fields, each at its place. -/

theorem toNat_opField (w : Word) : (opField w).toNat = w.toNat / 2 ^ 24 := by
  have := w.isLt
  simp only [opField, BitVec.extractLsb'_toNat, Nat.shiftRight_eq_div_pow]
  omega

theorem toNat_fieldA (w : Word) : (fieldA w).toNat = w.toNat / 2 ^ 16 % 2 ^ 8 := by
  simp [fieldA, Nat.shiftRight_eq_div_pow]

theorem toNat_fieldB (w : Word) : (fieldB w).toNat = w.toNat / 2 ^ 8 % 2 ^ 8 := by
  simp [fieldB, Nat.shiftRight_eq_div_pow]

theorem toNat_fieldIdx (w : Word) : (fieldIdx w).toNat = w.toNat % 2 ^ 9 := by simp [fieldIdx]

theorem toNat_fieldImm (w : Word) : (fieldImm w).toNat = w.toNat % 2 ^ 16 := by simp [fieldImm]

theorem toNat_fieldEc (w : Word) : (fieldEc w).toNat = w.toNat / 2 ^ 3 % 2 ^ 2 := by
  simp [fieldEc, Nat.shiftRight_eq_div_pow]

theorem toNat_fieldMask (w : Word) : (fieldMask w).toNat = w.toNat % 2 ^ 3 := by simp [fieldMask]

/-- A field of `n` bits set beside a word whose low `k + n` bits are free (R61). -/
theorem toNat_or_field {n : Nat} (w : Word) (x : BitVec n) {k : Nat} (hk : k + n ≤ 32) (hw : 2 ^ (k + n) ∣ w.toNat) :
    (w ||| x.setWidth 32 <<< k).toNat = w.toNat + x.toNat * 2 ^ k := by
  have hx : x.toNat * 2 ^ k < 2 ^ (k + n) := by
    rw [Nat.pow_add, Nat.mul_comm]
    exact Nat.mul_lt_mul_of_pos_left x.isLt (Nat.two_pow_pos k)
  have hle : 2 ^ (k + n) ≤ 2 ^ 32 := Nat.pow_le_pow_right (by decide) hk
  have hn : x.toNat % 2 ^ 32 = x.toNat :=
    Nat.mod_eq_of_lt (x.isLt.trans_le ((Nat.pow_le_pow_right (by decide) (Nat.le_add_left n k)).trans hle))
  obtain ⟨q, hq⟩ := hw
  rw [BitVec.toNat_or, BitVec.toNat_shiftLeft, BitVec.toNat_setWidth, hn, Nat.shiftLeft_eq,
    Nat.mod_eq_of_lt (hx.trans_le hle), hq, ← Nat.two_pow_add_eq_or_of_lt hx]

theorem toNat_wordZ (m : Mnemonic) : (wordZ m).toNat = m.opcode.toNat * 2 ^ 24 := by
  have := m.opcode.isLt
  simp only [wordZ, BitVec.toNat_shiftLeft, BitVec.toNat_setWidth, Nat.shiftLeft_eq]
  omega

theorem toNat_wordA (m : Mnemonic) (a : Byte) : (wordA m a).toNat = m.opcode.toNat * 2 ^ 24 + a.toNat * 2 ^ 16 := by
  rw [wordA, toNat_or_field _ _ (by decide) (by rw [toNat_wordZ]; omega), toNat_wordZ]

theorem toNat_wordAB (m : Mnemonic) (a b : Byte) :
    (wordAB m a b).toNat = m.opcode.toNat * 2 ^ 24 + a.toNat * 2 ^ 16 + b.toNat * 2 ^ 8 := by
  change (wordA m a ||| b.setWidth 32 <<< 8).toNat = _
  rw [toNat_or_field _ _ (by decide) (by rw [toNat_wordA]; omega), toNat_wordA]

/-- A field in the lowest bits of a word. -/
theorem toNat_or_lowField {n : Nat} (m : Mnemonic) (x : BitVec n) (hn : n ≤ 24) :
    (wordZ m ||| x.setWidth 32).toNat = m.opcode.toNat * 2 ^ 24 + x.toNat := by
  have hdvd : 2 ^ (0 + n) ∣ (wordZ m).toNat := by
    rw [toNat_wordZ, Nat.zero_add]
    exact (pow_dvd_pow 2 hn).mul_left _
  simpa [toNat_wordZ] using toNat_or_field (wordZ m) x (k := 0) (by omega) hdvd

theorem toNat_wordI9 (m : Mnemonic) (idx : BitVec 9) : (wordI9 m idx).toNat = m.opcode.toNat * 2 ^ 24 + idx.toNat :=
  toNat_or_lowField m idx (by decide)

theorem toNat_wordI16 (m : Mnemonic) (imm : BitVec 16) : (wordI16 m imm).toNat = m.opcode.toNat * 2 ^ 24 + imm.toNat :=
  toNat_or_lowField m imm (by decide)

theorem toNat_wordF (m : Mnemonic) (ec : BitVec 2) (mask : BitVec 3) :
    (wordF m ec mask).toNat = m.opcode.toNat * 2 ^ 24 + ec.toNat * 2 ^ 3 + mask.toNat := by
  have hec : (wordZ m ||| ec.setWidth 32 <<< 3).toNat = m.opcode.toNat * 2 ^ 24 + ec.toNat * 2 ^ 3 := by
    rw [toNat_or_field _ _ (by decide) (by rw [toNat_wordZ]; omega), toNat_wordZ]
  have := toNat_or_field (wordZ m ||| ec.setWidth 32 <<< 3) mask (k := 0) (by decide) (by rw [hec]; omega)
  simpa [wordF, hec] using this

/-! ## What the fields of a command's word hold (R62) -/

theorem fieldA_wordA (m : Mnemonic) (a : Byte) : fieldA (wordA m a) = a := by
  apply BitVec.eq_of_toNat_eq
  rw [toNat_fieldA, toNat_wordA]
  omega

theorem fieldA_wordAB (m : Mnemonic) (a b : Byte) : fieldA (wordAB m a b) = a := by
  apply BitVec.eq_of_toNat_eq
  rw [toNat_fieldA, toNat_wordAB]
  omega

theorem fieldB_wordAB (m : Mnemonic) (a b : Byte) : fieldB (wordAB m a b) = b := by
  apply BitVec.eq_of_toNat_eq
  rw [toNat_fieldB, toNat_wordAB]
  omega

theorem fieldIdx_wordI9 (m : Mnemonic) (idx : BitVec 9) : fieldIdx (wordI9 m idx) = idx := by
  apply BitVec.eq_of_toNat_eq
  rw [toNat_fieldIdx, toNat_wordI9]
  omega

theorem fieldImm_wordI16 (m : Mnemonic) (imm : BitVec 16) : fieldImm (wordI16 m imm) = imm := by
  apply BitVec.eq_of_toNat_eq
  rw [toNat_fieldImm, toNat_wordI16]
  omega

theorem fieldEc_wordF (m : Mnemonic) (ec : BitVec 2) (mask : BitVec 3) : fieldEc (wordF m ec mask) = ec := by
  apply BitVec.eq_of_toNat_eq
  rw [toNat_fieldEc, toNat_wordF]
  omega

theorem fieldMask_wordF (m : Mnemonic) (ec : BitVec 2) (mask : BitVec 3) : fieldMask (wordF m ec mask) = mask := by
  apply BitVec.eq_of_toNat_eq
  rw [toNat_fieldMask, toNat_wordF]
  omega

/-- An operand that fits the 16 bits of its field is read back whole. -/
theorem toNat_fieldImm_wordI16 (m : Mnemonic) {imm : Nat} (h : imm < 2 ^ 16) :
    (fieldImm (wordI16 m (BitVec.ofNat 16 imm))).toNat = imm := by
  rw [fieldImm_wordI16, BitVec.toNat_ofNat, Nat.mod_eq_of_lt h]

/-! ## Decoding a command's word -/

open Laws in
/-- Every command's word has the command's opcode, and 0 in the bits its format reserves (R61, R63). -/
theorem encode_fields (i : Instr) : WordFields.Statement i := by
  cases i with
  | nop => exact WordFields.nop
  | gfexp idx => exact WordFields.gfexp idx
  | gflog a => exact WordFields.gflog a
  | gfmul a b => exact WordFields.gfmul a b
  | txclr => exact WordFields.txclr
  | txpush imm => exact WordFields.txpush imm
  | assemble => exact WordFields.assemble
  | rsenc => exact WordFields.rsenc
  | gridclr => exact WordFields.gridclr
  | finder => exact WordFields.finder
  | timing => exact WordFields.timing
  | darkmod => exact WordFields.darkmod
  | reserve => exact WordFields.reserve
  | place => exact WordFields.place
  | fmtwrite => exact WordFields.fmtwrite
  | finalize => exact WordFields.finalize
  | fmtenc ec mask => exact WordFields.fmtenc ec mask
  | sethint imm => exact WordFields.sethint imm
  | render => exact WordFields.render
  | encode => exact WordFields.encode

open Laws.WordFields in
/-- The command of its own name, with the operands of its own word, is the command itself. -/
theorem instrOf_encode {i : Instr} (h : i.wellFormed = true) : instrOf (encode i) (nameOf i) = i := by
  cases i with
  | gfexp idx => exact congrArg Instr.gfexp (fieldIdx_wordI9 _ idx)
  | gflog a => exact congrArg Instr.gflog (fieldA_wordA _ a)
  | gfmul a b => exact congrArg₂ Instr.gfmul (fieldA_wordAB _ a b) (fieldB_wordAB _ a b)
  | txpush imm => exact congrArg Instr.txpush (toNat_fieldImm_wordI16 _ (of_decide_eq_true h))
  | sethint imm => exact congrArg Instr.sethint (toNat_fieldImm_wordI16 _ (of_decide_eq_true h))
  | fmtenc ec mask => exact congrArg₂ Instr.fmtenc (fieldEc_wordF _ ec mask) (fieldMask_wordF _ ec mask)
  | nop | txclr | assemble | rsenc | gridclr | finder | timing | darkmod | reserve | place | fmtwrite | finalize | render
  | encode => rfl

theorem decode_encode {i : Instr} (h : i.wellFormed = true) : decode (encode i) = .ok i := by
  obtain ⟨hop, hres⟩ := encode_fields i
  rw [decode_of_legal (by rw [hop, Mnemonic.ofOpcode?_opcode]) hres, instrOf_encode h]

/-- Settles O1: the word's opcode names the command, its reserved bits are 0 and its fields hold the operands. -/
theorem decodeOfEncodeIsTheCommand : Obligations.DecodeOfEncodeIsTheCommand := by
  unfold Obligations.DecodeOfEncodeIsTheCommand
  exact fun _ h => decode_encode h

/-- Settles O5: each example word is its command's word. -/
theorem exampleWordsDecode : Obligations.ExampleWordsDecode := by
  unfold Obligations.ExampleWordsDecode
  have read {i : Instr} {w : Word} (hi : i.wellFormed = true) (hw : encode i = w) : decode w = .ok i := hw ▸ decode_encode hi
  exact ⟨read rfl rfl, read rfl rfl, read rfl rfl, read rfl rfl, read rfl rfl, read rfl rfl, read rfl rfl, read rfl rfl,
    read rfl rfl, read rfl rfl⟩

end Sys2Proof

namespace Sys2Proof

/-! ## Legal words (R61, R64)

The reserved bits of every format are one run of bits, so they are clear exactly when one digit of the word's number is 0. -/

/-- A run of `n` bits from bit `k` on is clear. -/
theorem and_shifted_mask_eq_zero_iff (x k n : Nat) : x &&& (2 ^ n - 1) <<< k = 0 ↔ x / 2 ^ k % 2 ^ n = 0 := by
  have hshift : x &&& (2 ^ n - 1) <<< k = (x >>> k &&& 2 ^ n - 1) <<< k := by
    apply Nat.eq_of_testBit_eq
    intro j
    by_cases hj : k ≤ j <;> simp [hj, Bool.and_comm]
  rw [hshift, Nat.and_two_pow_sub_one_eq_mod, Nat.shiftRight_eq_div_pow, Nat.shiftLeft_eq]
  simp

theorem and_mask_eq_zero_iff (w r : Word) (k n : Nat) (hr : r.toNat = (2 ^ n - 1) <<< k) :
    w &&& r = 0 ↔ w.toNat / 2 ^ k % 2 ^ n = 0 := by
  rw [← and_shifted_mask_eq_zero_iff, ← hr, ← BitVec.toNat_and, ← BitVec.toNat_inj]
  rfl

variable {w : Word} {m : Mnemonic}

theorem wordZ_of_legal (hop : m.opcode = opField w) (hr : w &&& Format.reservedBits .z = 0) : wordZ m = w := by
  rw [and_mask_eq_zero_iff _ _ 0 24 rfl] at hr
  apply BitVec.eq_of_toNat_eq
  rw [toNat_wordZ, hop, toNat_opField]
  omega

theorem wordA_of_legal (hop : m.opcode = opField w) (hr : w &&& Format.reservedBits .a = 0) : wordA m (fieldA w) = w := by
  rw [and_mask_eq_zero_iff _ _ 0 16 rfl] at hr
  apply BitVec.eq_of_toNat_eq
  rw [toNat_wordA, hop, toNat_opField, toNat_fieldA]
  omega

theorem wordAB_of_legal (hop : m.opcode = opField w) (hr : w &&& Format.reservedBits .ab = 0) :
    wordAB m (fieldA w) (fieldB w) = w := by
  rw [and_mask_eq_zero_iff _ _ 0 8 rfl] at hr
  apply BitVec.eq_of_toNat_eq
  rw [toNat_wordAB, hop, toNat_opField, toNat_fieldA, toNat_fieldB]
  omega

theorem wordI9_of_legal (hop : m.opcode = opField w) (hr : w &&& Format.reservedBits .i9 = 0) :
    wordI9 m (fieldIdx w) = w := by
  rw [and_mask_eq_zero_iff _ _ 9 15 rfl] at hr
  apply BitVec.eq_of_toNat_eq
  rw [toNat_wordI9, hop, toNat_opField, toNat_fieldIdx]
  omega

theorem wordI16_of_legal (hop : m.opcode = opField w) (hr : w &&& Format.reservedBits .i16 = 0) :
    wordI16 m (BitVec.ofNat 16 (fieldImm w).toNat) = w := by
  rw [and_mask_eq_zero_iff _ _ 16 8 rfl] at hr
  apply BitVec.eq_of_toNat_eq
  rw [BitVec.ofNat_toNat, BitVec.setWidth_eq, toNat_wordI16, hop, toNat_opField, toNat_fieldImm]
  omega

theorem wordF_of_legal (hop : m.opcode = opField w) (hr : w &&& Format.reservedBits .f = 0) :
    wordF m (fieldEc w) (fieldMask w) = w := by
  rw [and_mask_eq_zero_iff _ _ 5 19 rfl] at hr
  apply BitVec.eq_of_toNat_eq
  rw [toNat_wordF, hop, toNat_opField, toNat_fieldEc, toNat_fieldMask]
  omega

/-- A legal word is rebuilt from its opcode and its operands: no bit of it is lost. -/
theorem encode_instrOf (hop : m.opcode = opField w) (hr : w &&& m.format.reservedBits = 0) : encode (instrOf w m) = w := by
  cases m with
  | gfexp => exact wordI9_of_legal hop hr
  | gflog => exact wordA_of_legal hop hr
  | gfmul => exact wordAB_of_legal hop hr
  | txpush | sethint => exact wordI16_of_legal hop hr
  | fmtenc => exact wordF_of_legal hop hr
  | nop | txclr | assemble | rsenc | gridclr | finder | timing | darkmod | reserve | place | fmtwrite | finalize | render
  | encode => exact wordZ_of_legal hop hr

theorem instrOf_wellFormed (w : Word) (m : Mnemonic) : (instrOf w m).wellFormed = true := by
  cases m with
  | txpush | sethint => exact decide_eq_true (fieldImm w).isLt
  | nop | gfexp | gflog | gfmul | txclr | assemble | rsenc | gridclr | finder | timing | darkmod | reserve | place | fmtwrite
  | finalize | fmtenc | render | encode => rfl

/-- Settles O2: the decoded command is the one the legal word is rebuilt from. -/
theorem encodeOfDecodeIsTheWord : Obligations.EncodeOfDecodeIsTheWord := by
  unfold Obligations.EncodeOfDecodeIsTheWord
  intro w i h
  obtain ⟨m, hop, hr, rfl⟩ := decode_ok_cases h
  exact ⟨instrOf_wellFormed w m, encode_instrOf hop hr⟩

/-- Settles O4: each operand of the command decoded is its field, read as a number. -/
theorem operandsAreFieldsOfTheWord : Obligations.OperandsAreFieldsOfTheWord := by
  unfold Obligations.OperandsAreFieldsOfTheWord
  intro w i h
  obtain ⟨m, -, -, rfl⟩ := decode_ok_cases h
  cases m with
  | gfexp => exact toNat_fieldIdx w
  | gflog => exact toNat_fieldA w
  | gfmul => exact ⟨toNat_fieldA w, toNat_fieldB w⟩
  | txpush | sethint => exact toNat_fieldImm w
  | fmtenc => exact ⟨toNat_fieldEc w, toNat_fieldMask w⟩
  | nop | txclr | assemble | rsenc | gridclr | finder | timing | darkmod | reserve | place | fmtwrite | finalize | render
  | encode => exact trivial

end Sys2Proof

namespace Sys2Proof

/-! ## The rows of the opcode table (R64) -/

/-- A word decodes exactly when its opcode is a command's and it has 0 in the bits that command's format reserves. -/
theorem decode_ok_iff (w : Word) :
    (∃ i, decode w = .ok i) ↔ ∃ m : Mnemonic, m.opcode = opField w ∧ w &&& m.format.reservedBits = 0 := by
  constructor
  · rintro ⟨i, h⟩
    obtain ⟨m, hop, hr, -⟩ := decode_ok_cases h
    exact ⟨m, hop, hr⟩
  · rintro ⟨m, hop, hr⟩
    exact ⟨instrOf w m, decode_of_legal (hop ▸ Mnemonic.ofOpcode?_opcode m) hr⟩

/-- The bits of a word that are no operand's: the opcode and the reserved bits (R61). -/
def Format.fixedBits (fmt : Format) : Word := 0xFF000000 ||| fmt.reservedBits

theorem opField_fixedBits (fmt : Format) : opField fmt.fixedBits = BitVec.allOnes 8 := by cases fmt <;> decide

theorem fixedBits_and_belowOpcode (fmt : Format) : fmt.fixedBits &&& Format.reservedBits .z = fmt.reservedBits := by
  cases fmt <;> decide

theorem opField_and (w v : Word) : opField (w &&& v) = opField w &&& opField v := BitVec.extractLsb'_and

theorem opField_wordZ (m : Mnemonic) : opField (wordZ m) = m.opcode := by
  apply BitVec.eq_of_toNat_eq
  rw [toNat_opField, toNat_wordZ]
  omega

theorem wordZ_and_belowOpcode (m : Mnemonic) : wordZ m &&& Format.reservedBits .z = 0 := by cases m <;> decide

/-- The fixed bits of a word are those of the command's word without operands exactly when the word is one of its legal words. -/
theorem and_fixedBits_eq_wordZ_iff (w : Word) (m : Mnemonic) :
    w &&& m.format.fixedBits = wordZ m ↔ m.opcode = opField w ∧ w &&& m.format.reservedBits = 0 := by
  have hop : opField (w &&& m.format.fixedBits) = opField w := by rw [opField_and, opField_fixedBits, BitVec.and_allOnes]
  have hr : (w &&& m.format.fixedBits) &&& Format.reservedBits .z = w &&& m.format.reservedBits := by
    rw [BitVec.and_assoc, fixedBits_and_belowOpcode]
  constructor
  · intro h
    rw [h] at hop hr
    exact ⟨(opField_wordZ m).symm.trans hop, hr.symm.trans (wordZ_and_belowOpcode m)⟩
  · rintro ⟨ho, hz⟩
    exact (wordZ_of_legal (ho.trans hop.symm) (hr.trans hz)).symm

theorem tableRows_eq : Machine.tableRows = Mnemonic.all.map fun m => (wordZ m, m.format.fixedBits) := by decide

theorem Mnemonic.mem_all (m : Mnemonic) : m ∈ Mnemonic.all := by cases m <;> decide

/-- Settles O3: the rows are the commands' fixed bits, and a word has a command's fixed bits exactly when it decodes to it. -/
theorem legalWordsAreTheTableRows : Obligations.LegalWordsAreTheTableRows := by
  unfold Obligations.LegalWordsAreTheTableRows
  intro w
  simp only [decode_ok_iff, ← and_fixedBits_eq_wordZ_iff, tableRows_eq, List.mem_map, Mnemonic.mem_all, true_and,
    exists_exists_eq_and]

end Sys2Proof

namespace Sys2Proof.Machine

/-! ## What a step does with a command that is presented (R60, R64) -/

/-- A core that is not halted consumes an event that asks for a command, and executes the command. -/
theorem step_of_eventCommand? {s : State} {e : HostEvent} {rest : List HostEvent} {i : Instr} (hp : s.port = e :: rest)
    (hf : s.fault = .none) (he : eventCommand? s.cfg e = some i) : step s = exec i (s.setPort rest) := by
  have hstep : step s = acceptEvent e (s.setPort rest) := by simp only [step, takeEvent, hp]
  have hne : e ≠ .reset := fun h => by simp [h, eventCommand?] at he
  rcases acceptEvent_running (s := s.setPort rest) hf hne with ⟨j, hj, hx⟩ | ⟨w, d, rfl, hd, -⟩
  · obtain rfl : j = i := Option.some.inj (hj.symm.trans he)
    exact hstep.trans hx
  · simp [eventCommand?, hd, Except.toOption] at he

/-- Settles O6: a word that decodes, and an argument of the core's width, each ask for their command. -/
theorem stepRunsTheDecodedCommand : Obligations.StepRunsTheDecodedCommand := by
  unfold Obligations.StepRunsTheDecodedCommand
  refine ⟨fun s w rest i hp hf hd => ?word, fun s imm rest hf => ⟨fun hp hlt => ?txpush, fun hp hlt => ?sethint⟩⟩
  case word => exact step_of_eventCommand? hp hf (congrArg Except.toOption hd)
  case txpush => exact step_of_eventCommand? hp hf (by rw [eventCommand?, Nat.mod_eq_of_lt hlt])
  case sethint => exact step_of_eventCommand? hp hf (by rw [eventCommand?, Nat.mod_eq_of_lt hlt])

/-! ## Sending a list of commands (R62, R66) -/

/-- The event that presents one of a core's commands asks the core for that command, as a word or with an argument. -/
theorem eventCommand?_presented {c : Config} {i : Instr} (h : i.fits c = true) :
    eventCommand? c (presented c i) = some i := by
  have word {j : Instr} (hj : j.wellFormed = true) : eventCommand? c (.command (encode j)) = some j :=
    congrArg Except.toOption (decode_encode hj)
  cases i with
  | txpush imm =>
    have hlt : imm < 2 ^ c.cw := of_decide_eq_true h
    by_cases hw : c.cw = 16
    · rw [presented, if_pos hw]
      exact word (decide_eq_true (hw ▸ hlt))
    · rw [presented, if_neg hw, eventCommand?, Nat.mod_eq_of_lt hlt]
  | sethint imm =>
    have hlt : imm < 2 ^ c.hintW := of_decide_eq_true h
    by_cases hw : c.hintW = 16
    · rw [presented, if_pos hw]
      exact word (decide_eq_true (hw ▸ hlt))
    · rw [presented, if_neg hw, eventCommand?, Nat.mod_eq_of_lt hlt]
  | nop | gfexp | gflog | gfmul | txclr | assemble | rsenc | gridclr | finder | timing | darkmod | reserve | place | fmtwrite
  | finalize | fmtenc | render | encode => exact word rfl

theorem run_succ_of_step {s t : State} (h : step s = .next t) (k : Nat) :
    Host.Core.run Sys2Proof.core (k + 1) s = Host.Core.run Sys2Proof.core k t := by
  simp only [Host.Core.run, Sys2Proof.core, h]

/-- A run whose first command completes goes on from the state the command leaves. -/
theorem run_sent_cons {s t : State} {i : Instr} {is : List Instr} {rest : List HostEvent} (hf : s.fault = .none)
    (hi : i.fits s.cfg = true) (hp : s.port = sent s.cfg (i :: is) ++ rest)
    (hx : exec i (s.setPort (sent s.cfg is ++ rest)) = .next t) (k : Nat) :
    Host.Core.run Sys2Proof.core (k + 1) s = Host.Core.run Sys2Proof.core k t :=
  run_succ_of_step ((step_of_eventCommand? hp hf (eventCommand?_presented hi)).trans hx) k

theorem exec_txpush {s : State} {imm : CodeUnit} (h : imm < 2 ^ s.cfg.cw) :
    exec (.txpush imm) s = .next (s.setTxt (s.txt ++ [imm])) :=
  whenFits_pass h _ _ _

/-- The `TXPUSH` commands of a text append it (R121). -/
theorem run_sent_txpush (u : List CodeUnit) (rest : List HostEvent) (s : State) (hf : s.fault = .none)
    (hu : ∀ x ∈ u, x < 2 ^ s.cfg.cw) (hp : s.port = sent s.cfg (u.map .txpush) ++ rest) :
    Host.Core.run Sys2Proof.core u.length s = .next ((s.setPort rest).setTxt (s.txt ++ u)) := by
  induction u generalizing s with
  | nil =>
    obtain rfl : s.port = rest := hp
    rw [List.append_nil]
    rfl
  | cons x xs ih =>
    obtain ⟨hx, hxs⟩ := List.forall_mem_cons.mp hu
    have htxt : s.txt ++ x :: xs = (s.txt ++ [x]) ++ xs := List.append_cons ..
    rw [htxt]
    exact (run_sent_cons (i := .txpush x) hf (decide_eq_true hx) hp (exec_txpush hx) xs.length).trans (ih _ hf hxs rfl)

/-- Settles O32: `TXCLR` empties the text and the `TXPUSH` commands append the string to it. -/
theorem sendingATextLoadsIt : Obligations.SendingATextLoadsIt := by
  unfold Obligations.SendingATextLoadsIt
  intro s u rest hf hu hp
  exact (run_sent_cons hf rfl hp rfl u.length).trans
    (run_sent_txpush u rest ((s.setPort (sent s.cfg (u.map .txpush) ++ rest)).setTxt []) hf hu rfl)

end Sys2Proof.Machine

namespace Sys2Proof.Machine

/-! ## The field product, without tables

The product is additive in each operand, so that a law of it need only be checked on the bytes with one bit set. -/

/-- A fold whose steps respect sums respects sums. -/
theorem foldl_xor {n : Nat} {f g h : BitVec n → Nat → BitVec n} (hstep : ∀ x y i, f (x ^^^ y) i = g x i ^^^ h y i)
    (l : List Nat) (x y : BitVec n) : l.foldl f (x ^^^ y) = l.foldl g x ^^^ l.foldl h y := by
  induction l generalizing x y with
  | nil => rfl
  | cons i l ih => simp only [List.foldl_cons, hstep, ih]

/-- Adding a term under each of two bits is adding it under their sum. -/
theorem ite_xor_xor {n : Nat} (b c : Bool) (x y t : BitVec n) :
    (if (b ^^ c) = true then x ^^^ y ^^^ t else x ^^^ y) = (if b then x ^^^ t else x) ^^^ (if c then y ^^^ t else y) := by
  match b, c with
  | false, false => rfl
  | false, true => exact BitVec.xor_assoc ..
  | true, false =>
    show x ^^^ y ^^^ t = x ^^^ t ^^^ y
    ac_rfl
  | true, true =>
    calc x ^^^ y
      _ = (x ^^^ y) ^^^ (t ^^^ t) := by rw [BitVec.xor_self, BitVec.xor_zero]
      _ = (x ^^^ t) ^^^ (y ^^^ t) := by ac_rfl

theorem clProduct_xor_left (a a' b : Byte) : clProduct (a ^^^ a') b = clProduct a b ^^^ clProduct a' b := by
  refine foldl_xor (fun x y i => ?_) _ 0 0
  cases b.getLsbD i
  · rfl
  · simp only [if_true, BitVec.setWidth_xor, BitVec.shiftLeft_xor_distrib]
    ac_rfl

theorem clProduct_xor_right (a b b' : Byte) : clProduct a (b ^^^ b') = clProduct a b ^^^ clProduct a b' := by
  refine foldl_xor (fun x y i => ?_) _ 0 0
  rw [BitVec.getLsbD_xor, ite_xor_xor]

/-- The remainder of a polynomial of degree at most 14 divided by x^8 + x^4 + x^3 + x^2 + 1. -/
def polyReduce (p : BitVec 15) : BitVec 15 :=
  [14, 13, 12, 11, 10, 9, 8].foldl (fun acc i => if acc.getLsbD i then acc ^^^ (0x11D#15 <<< (i - 8)) else acc) p

theorem fieldMul_eq (a b : Byte) : fieldMul a b = (polyReduce (clProduct a b)).setWidth 8 := rfl

theorem polyReduce_xor (p q : BitVec 15) : polyReduce (p ^^^ q) = polyReduce p ^^^ polyReduce q := by
  refine foldl_xor (fun x y i => ?_) _ p q
  rw [BitVec.getLsbD_xor, ite_xor_xor]

theorem fieldMul_xor_left (a a' b : Byte) : fieldMul (a ^^^ a') b = fieldMul a b ^^^ fieldMul a' b := by
  simp only [fieldMul_eq, clProduct_xor_left, polyReduce_xor, BitVec.setWidth_xor]

theorem fieldMul_xor_right (a b b' : Byte) : fieldMul a (b ^^^ b') = fieldMul a b ^^^ fieldMul a b' := by
  simp only [fieldMul_eq, clProduct_xor_right, polyReduce_xor, BitVec.setWidth_xor]

/-- Every byte is a sum of powers of two. -/
theorem byte_eq_foldl_bits (x : Byte) :
    x = (List.range 8).foldl (fun y i => y ^^^ if x.getLsbD i then 1#8 <<< i else 0#8) 0#8 := by
  revert x
  decide +kernel

/-- What holds of 0 and of the bytes with one bit set, and of a sum when it holds of both terms, holds of every byte. -/
theorem byte_xor_induction {P : Byte → Prop} (zero : P 0#8) (bit : ∀ i < 8, P (1#8 <<< i))
    (xor : ∀ x y, P x → P y → P (x ^^^ y)) (x : Byte) : P x := by
  rw [byte_eq_foldl_bits x]
  refine List.foldlRecOn (motive := P) _ _ zero fun y hy i hi => xor _ _ hy ?_
  split
  · exact bit i (List.mem_range.mp hi)
  · exact zero

@[simp] theorem fieldMul_zero_left (a : Byte) : fieldMul 0#8 a = 0#8 := by
  induction a using byte_xor_induction with
  | zero => rfl
  | bit i hi => revert i; decide
  | xor x y hx hy => rw [fieldMul_xor_right, hx, hy]; rfl

@[simp] theorem fieldMul_zero_right (a : Byte) : fieldMul a 0#8 = 0#8 := by
  induction a using byte_xor_induction with
  | zero => rfl
  | bit i hi => revert i; decide
  | xor x y hx hy => rw [fieldMul_xor_left, hx, hy]; rfl

@[simp] theorem fieldMul_one (a : Byte) : fieldMul a 1#8 = a := by
  induction a using byte_xor_induction with
  | zero => rfl
  | bit i hi => revert i; decide
  | xor x y hx hy => rw [fieldMul_xor_left, hx, hy]

/-- Multiplication by α associates (the step of `alphaPow_add`). -/
theorem fieldMul_fieldMul_two (a b : Byte) : fieldMul (fieldMul a b) 2 = fieldMul a (fieldMul b 2) := by
  induction a using byte_xor_induction with
  | zero => simp
  | xor x y hx hy => simp only [fieldMul_xor_left, hx, hy]
  | bit i hi =>
    induction b using byte_xor_induction with
    | zero => simp
    | xor x y hx hy => simp only [fieldMul_xor_left, fieldMul_xor_right, hx, hy]
    | bit j hj => revert i j; decide +kernel

/-- Doubling, as R96 writes it. -/
theorem fieldMul_two (a : Byte) : fieldMul a 2 = if a.getLsbD 7 then (a <<< 1) ^^^ 0x1D else a <<< 1 := by
  revert a
  decide +kernel

/-- The construction's doubling is multiplication by α (R90). -/
theorem xtime_eq_fieldMul_two (a : Byte) : xtime a = fieldMul a 2 := by
  rw [fieldMul_two]
  revert a
  decide +kernel

/-! ## The powers of α -/

@[simp] theorem alphaPow_zero : alphaPow 0 = 1 := rfl

theorem alphaPow_succ (n : Nat) : alphaPow (n + 1) = fieldMul (alphaPow n) 2 := rfl

theorem alphaPow_add (m n : Nat) : alphaPow (m + n) = fieldMul (alphaPow m) (alphaPow n) := by
  induction n with
  | zero => simp
  | succ n ih => rw [← Nat.add_assoc, alphaPow_succ, ih, fieldMul_fieldMul_two, alphaPow_succ]

end Sys2Proof.Machine

namespace Sys2Proof.Machine

/-! ## The tables hold the powers and the logarithms (R91, R97, R98) -/

theorem getD_toList {n : Nat} (v : Vector Byte n) {i : Nat} (hi : i < n) : v.toList.getD i 0 = v[i] := by
  simp [hi]

theorem getD_toList_log (l : Vector Byte 256) (x : Byte) : l.toList.getD x.toNat 0 = logAt l x := getD_toList l x.isLt

/-- Each entry of `EXP` is the one before it, doubled. -/
theorem expTable_isChain : expTable.toList.IsChain fun x y => y = fieldMul x 2 := by decide +kernel

theorem getElem_expTable {i : Nat} (hi : i < 512) : expTable[i] = alphaPow i := by
  induction i with
  | zero => decide +kernel +revert
  | succ i ih =>
    have hstep := List.isChain_iff_getElem.mp expTable_isChain i (by simpa using hi)
    simpa [alphaPow_succ, ih (by omega)] using hstep

theorem getD_expTable {i : Nat} (hi : i < 512) : expTable.toList.getD i 0 = alphaPow i := by
  rw [getD_toList _ hi, getElem_expTable hi]

/-! ## The order of α -/

theorem alphaPow_255 : alphaPow 255 = 1 := by
  rw [← getElem_expTable (by decide)]
  decide +kernel

theorem alphaPow_255_mul (k : Nat) : alphaPow (255 * k) = 1 := by
  induction k with
  | zero => rfl
  | succ k ih => rw [Nat.mul_succ, alphaPow_add, ih, alphaPow_255]; rfl

/-- The powers repeat after 255 (R91). -/
@[simp] theorem alphaPow_mod (n : Nat) : alphaPow (n % 255) = alphaPow n := by
  conv_rhs => rw [← Nat.mod_add_div n 255, alphaPow_add, alphaPow_255_mul]
  exact (fieldMul_one _).symm

/-- No power is 0, since a power of it is 1. -/
theorem alphaPow_ne_zero (n : Nat) : alphaPow n ≠ 0 := by
  intro h
  have h1 : fieldMul (alphaPow n) (alphaPow (254 * n)) = 1 := by
    rw [← alphaPow_add, ← alphaPow_255_mul n]
    congr 1
    omega
  rw [h] at h1
  simp at h1

/-! ## The logarithm -/

/-- A list of bytes as one number, in which an entry is looked up by one division: the two checks below, that the tables
invert each other, then do not walk a list for every entry. -/
def bytesToNat : List Byte → Nat
  | [] => 0
  | x :: l => x.toNat + 256 * bytesToNat l

theorem bytesToNat_digit (l : List Byte) (i : Nat) : bytesToNat l / 256 ^ i % 256 = (l.getD i 0).toNat := by
  induction l generalizing i with
  | nil => simp [bytesToNat]
  | cons x l ih =>
    have hx := x.isLt
    cases i with
    | zero => simp [bytesToNat]; omega
    | succ i =>
      have hdiv : (x.toNat + 256 * bytesToNat l) / 256 = bytesToNat l := by omega
      rw [bytesToNat, Nat.pow_succ', ← Nat.div_div_eq_div_mul, hdiv, ih, List.getD_cons_succ]

/-- The exponent of a nonzero byte, 0 for 1: the entry of `LOG` with `LOG1` = 0. -/
def gfLog (x : Byte) : Nat := (logAt (logTable .zero) x).toNat

theorem gfLog_eq_digit (x : Byte) : gfLog x = bytesToNat (logTable .zero).toList / 256 ^ x.toNat % 256 := by
  rw [bytesToNat_digit, getD_toList_log, gfLog]

theorem toNat_alphaPow_eq_digit {i : Nat} (hi : i < 512) :
    (alphaPow i).toNat = bytesToNat expTable.toList / 256 ^ i % 256 := by
  rw [bytesToNat_digit, getD_expTable hi]

theorem alphaPow_gfLog {x : Byte} (hx : x ≠ 0) : alphaPow (gfLog x) = x := by
  have hlt : gfLog x < 512 := Nat.lt_trans (logAt _ x).isLt (by decide)
  apply BitVec.eq_of_toNat_eq
  rw [toNat_alphaPow_eq_digit hlt, gfLog_eq_digit]
  have check : ∀ n < 256, n ≠ 0 →
      bytesToNat expTable.toList / 256 ^ (bytesToNat (logTable .zero).toList / 256 ^ n % 256) % 256 = n := by decide +kernel
  exact check _ x.isLt fun h => hx (BitVec.eq_of_toNat_eq h)

theorem gfLog_alphaPow (n : Nat) : gfLog (alphaPow n) = n % 255 := by
  have hlt : n % 255 < 255 := Nat.mod_lt _ (by decide)
  have check : ∀ i < 255,
      bytesToNat (logTable .zero).toList / 256 ^ (bytesToNat expTable.toList / 256 ^ i % 256) % 256 = i := by decide +kernel
  rw [← alphaPow_mod, gfLog_eq_digit, toNat_alphaPow_eq_digit (by omega), check _ hlt]

theorem gfLog_lt {x : Byte} (hx : x ≠ 0) : gfLog x < 255 := by
  have h := gfLog_alphaPow (gfLog x)
  rw [alphaPow_gfLog hx] at h
  exact h ▸ Nat.mod_lt _ (by decide)

/-- Two powers agree exactly when their exponents agree modulo 255. -/
theorem alphaPow_eq_iff (m n : Nat) : alphaPow m = alphaPow n ↔ m % 255 = n % 255 := by
  constructor
  · intro h
    rw [← gfLog_alphaPow, h, gfLog_alphaPow]
  · intro h
    rw [← alphaPow_mod, h, alphaPow_mod]

/-- The parameter `LOG1` is the entry of 1 and of no other byte (R98). -/
theorem logAt_logTable (l : Log1) (x : Byte) :
    logAt (logTable l) x = if x = 1 then l.byte else logAt (logTable .zero) x := by
  have hx : 1 = x.toNat ↔ x = 1 := eq_comm.trans (BitVec.toNat_inj (y := 1#8))
  simp only [logAt, logTable, Vector.getElem_set, hx]
  split <;> rfl

theorem logAt_logTable_one (l : Log1) : logAt (logTable l) 1 = l.byte := by
  rw [logAt_logTable, if_pos rfl]

theorem toNat_logAt_logTable (l : Log1) {x : Byte} (hx : x ≠ 1) : (logAt (logTable l) x).toNat = gfLog x := by
  rw [logAt_logTable, if_neg hx, gfLog]

theorem alphaPow_log1 (l : Log1) : alphaPow l.byte.toNat = 1 := by
  cases l
  · exact alphaPow_255
  · rfl

/-- The entry of a nonzero byte is its logarithm, under both values of `LOG1`. -/
theorem alphaPow_logAt (l : Log1) {x : Byte} (hx : x ≠ 0) : alphaPow (logAt (logTable l) x).toNat = x := by
  by_cases h1 : x = 1
  · rw [h1, logAt_logTable_one, alphaPow_log1]
  · rw [toNat_logAt_logTable l h1, alphaPow_gfLog hx]

/-- The logarithm of a byte other than 0 and 1 is 1 to 254. -/
theorem logAt_bounds (l : Log1) {x : Byte} (hx : x ≠ 0) (h1 : x ≠ 1) :
    1 ≤ (logAt (logTable l) x).toNat ∧ (logAt (logTable l) x).toNat ≤ 254 := by
  rw [toNat_logAt_logTable l h1]
  have hlt := gfLog_lt hx
  have hne : gfLog x ≠ 0 := fun h => h1 (by rw [← alphaPow_gfLog hx, h, alphaPow_zero])
  omega

end Sys2Proof.Machine

namespace Sys2Proof.Machine

/-! ## `gfMultiply` is the field product (R95) -/

theorem toNat_add_toNat_lt (x y : Byte) : x.toNat + y.toNat < 512 := by
  have := x.isLt
  have := y.isLt
  omega

theorem gfMultiply_of_ne_zero (e : Vector Byte 512) (l : Vector Byte 256) {a b : Byte} (ha : a ≠ 0) (hb : b ≠ 0) :
    gfMultiply e l a b = e.toList.getD ((logAt l a).toNat + (logAt l b).toNat) 0 := by
  rw [getD_toList e (toNat_add_toNat_lt _ _), gfMultiply, if_neg (not_or.mpr ⟨ha, hb⟩)]

theorem gfMultiply_comm (e : Vector Byte 512) (l : Vector Byte 256) (a b : Byte) :
    gfMultiply e l a b = gfMultiply e l b a := by
  simp only [gfMultiply, Nat.add_comm, or_comm]

/-- On the constructed tables the logarithms add up to that of the product. -/
theorem gfMultiply_eq_fieldMul (l : Log1) (a b : Byte) : gfMultiply expTable (logTable l) a b = fieldMul a b := by
  by_cases ha : a = 0
  · simp [ha]
  by_cases hb : b = 0
  · simp [hb]
  rw [gfMultiply_of_ne_zero _ _ ha hb, getD_expTable (toNat_add_toNat_lt _ _), alphaPow_add, alphaPow_logAt l ha,
    alphaPow_logAt l hb]

theorem State.TablesOk.gfMultiply_eq {s : State} (h : s.TablesOk) (a b : Byte) :
    gfMultiply s.exp s.log a b = fieldMul a b := by
  obtain ⟨hexp, hlog, -⟩ := h
  rw [hexp, gfMultiply_congr_log _ hlog, gfMultiply_eq_fieldMul]

/-! ## The words of a command, and its reserved bits (R61, R64, R212) -/

theorem hasWord_encode {i : Instr} (h : i.wellFormed = true) : HasWord i (encode i) := ⟨rfl, decode_encode h⟩

/-- A word of a listed opcode with a reserved bit set is refused and takes `ReservedField`. -/
theorem faultsOnReserved (m : Mnemonic) : FaultsOnReserved m.opcode m.format.reservedBits := by
  intro w s rest hop hr hf hp
  have hd : decode w = .error .reservedField := decode_of_reserved ((congrArg _ hop).trans (Mnemonic.ofOpcode?_opcode m)) hr
  have hstep : step s = acceptWord w (s.setPort rest) := by simp only [step, takeEvent, hp, acceptEvent]
  exact hstep.trans (acceptWord_error (s := s.setPort rest) hf hd)

/-- Settles O23: the product read from the tables is the field product, and reads no `LOG[0]`. -/
theorem gfmulIsTheFieldProduct : Obligations.GfmulIsTheFieldProduct := by
  unfold Obligations.GfmulIsTheFieldProduct
  refine ⟨faultsOnReserved .gfmul, fun a b => ⟨hasWord_encode (i := .gfmul a b) rfl, fun s => ?_⟩⟩
  refine ⟨gfMultiply s.exp s.log a b, rfl, ?zero, ?nonzero, fun log' h => gfMultiply_congr_log s.exp h a b,
    fun h => h.gfMultiply_eq a b⟩
  case zero => rintro (rfl | rfl) <;> simp
  case nonzero =>
    intro ha hb
    rw [gfMultiply_of_ne_zero _ _ ha hb, getD_toList_log, getD_toList_log]

/-! ## The laws of the product (R96) -/

/-- The sum of two logarithms does not depend on their order. -/
theorem fieldMul_comm (a b : Byte) : fieldMul a b = fieldMul b a := by
  rw [← gfMultiply_eq_fieldMul .zero, gfMultiply_comm, gfMultiply_eq_fieldMul]

/-- Every nonzero byte is a power, and exponents add. -/
theorem fieldMul_assoc (a b c : Byte) : fieldMul (fieldMul a b) c = fieldMul a (fieldMul b c) := by
  by_cases ha : a = 0
  · simp [ha]
  by_cases hb : b = 0
  · simp [hb]
  by_cases hc : c = 0
  · simp [hc]
  rw [← alphaPow_gfLog ha, ← alphaPow_gfLog hb, ← alphaPow_gfLog hc]
  simp only [← alphaPow_add, Nat.add_assoc]

@[simp] theorem one_fieldMul (a : Byte) : fieldMul 1#8 a = a := by rw [fieldMul_comm, fieldMul_one]

/-- The inverse of a nonzero byte: the power whose exponent completes its own to 255. -/
theorem fieldMul_alphaPow_sub_gfLog {a : Byte} (ha : a ≠ 0) : fieldMul a (alphaPow (255 - gfLog a)) = 1 := by
  have hlt := gfLog_lt ha
  have hsum : gfLog a + (255 - gfLog a) = 255 := by omega
  calc fieldMul a (alphaPow (255 - gfLog a))
    _ = fieldMul (alphaPow (gfLog a)) (alphaPow (255 - gfLog a)) := by rw [alphaPow_gfLog ha]
    _ = 1 := by rw [← alphaPow_add, hsum, alphaPow_255]

theorem fieldMul_inverse_unique {a b b' : Byte} (h : fieldMul a b = 1) (h' : fieldMul a b' = 1) : b' = b := by
  calc b'
    _ = fieldMul b' (fieldMul a b) := by rw [h]; simp
    _ = b := by rw [← fieldMul_assoc, fieldMul_comm b' a, h']; simp

/-- Settles O24: on the constructed tables the operation is the field product, of which each law is proved above. -/
theorem fieldMultiplicationLaws : Obligations.FieldMultiplicationLaws := by
  unfold Obligations.FieldMultiplicationLaws
  intro l m hm
  obtain rfl : m = fieldMul := hm.trans (funext₂ (gfMultiply_eq_fieldMul l))
  refine ⟨fun a => ?units, fieldMul_comm, fieldMul_assoc, fieldMul_xor_right, fieldMul_two, fun a ha => ?inverse⟩
  case units => exact ⟨fieldMul_zero_right a, fieldMul_zero_left a, fieldMul_one a, one_fieldMul a⟩
  case inverse =>
    have hinv := fieldMul_alphaPow_sub_gfLog ha
    exact ⟨_, hinv, fun b' h' => fieldMul_inverse_unique hinv h'⟩

/-! ## `GFEXP` and `GFLOG` (R92, R93) -/

/-- Settles O21: the entry at every index is that power of α. -/
theorem gfexpReadsAPowerOfAlpha : Obligations.GfexpReadsAPowerOfAlpha := by
  unfold Obligations.GfexpReadsAPowerOfAlpha
  refine ⟨faultsOnReserved .gfexp, fun idx => ⟨hasWord_encode (i := .gfexp idx) rfl, fun s => ?_⟩⟩
  refine ⟨expAt s.exp idx, rfl, (getD_toList s.exp idx.isLt).symm, fun ⟨hexp, _⟩ => ?power⟩
  case power => rw [alphaPow_mod, hexp, expAt, getElem_expTable idx.isLt]

/-- Settles O22: 0 has no logarithm, and the entry of another byte is its own. -/
theorem gflogReadsTheLogarithm : Obligations.GflogReadsTheLogarithm := by
  unfold Obligations.GflogReadsTheLogarithm
  refine ⟨faultsOnReserved .gflog, fun a => ⟨hasWord_encode (i := .gflog a) rfl, fun s => ⟨?zero, fun ha => ?nonzero⟩⟩⟩
  case zero =>
    rintro rfl
    rfl
  case nonzero =>
    refine ⟨logAt s.log a, whenValue_pass (decide_eq_true ha) _ _ _, (getD_toList_log s.log a).symm, fun ⟨_, hlog, _⟩ => ?_⟩
    rw [hlog a ha]
    exact ⟨alphaPow_logAt _ ha, fun h1 => h1 ▸ logAt_logTable_one _, logAt_bounds _ ha⟩

end Sys2Proof.Machine

namespace Sys2Proof.Machine

/-! ## The construction (R90) -/

theorem buildFor_succ (n : Nat) : buildFor (n + 1) = buildStep (buildFor n) n := by
  simp only [buildFor, List.range_succ, List.foldl_append, List.foldl_cons, List.foldl_nil]

/-- The running `x` of the first loop. -/
theorem buildFor_x (n : Nat) : (buildFor n).x = alphaPow n := by
  induction n with
  | zero => rfl
  | succ n ih => rw [buildFor_succ, buildStep, xtime_eq_fieldMul_two, ih, alphaPow_succ]

theorem getElem_buildFor_exp {n i : Nat} (hin : i < n) (hi : i < 512) : (buildFor n).exp[i] = alphaPow i := by
  induction n with
  | zero => exact absurd hin (Nat.not_lt_zero i)
  | succ n ih =>
    simp only [buildFor_succ, buildStep, Vector.getElem_setIfInBounds, buildFor_x]
    split
    next h => rw [h]
    next h => exact ih (by omega)

/-- The entry of a byte is the last iteration that records it. -/
theorem logAt_buildFor {n i : Nat} (hin : i < n) (hlast : ∀ j, i < j → j < n → alphaPow j ≠ alphaPow i) :
    logAt (buildFor n).log (alphaPow i) = BitVec.ofNat 8 i := by
  induction n with
  | zero => exact absurd hin (Nat.not_lt_zero i)
  | succ n ih =>
    simp only [logAt, buildFor_succ, buildStep, Vector.getElem_setIfInBounds, buildFor_x, BitVec.toNat_inj]
    by_cases hn : n = i
    · rw [if_pos (congrArg alphaPow hn), hn]
    · rw [if_neg (hlast n (by omega) (by omega))]
      exact ih (by omega) fun j hij hjn => hlast j hij (by omega)

/-- One iteration of the second loop. -/
def mirrorStep (e : Vector Byte 512) (i : Nat) : Vector Byte 512 := e.setIfInBounds i (e.getD (i - 255) 0)

theorem mirrorExp_eq (e : Vector Byte 512) : mirrorExp e = (List.range' 255 257).foldl mirrorStep e := rfl

/-- The second loop extends the powers, since it copies each from 255 entries below. -/
theorem getElem_foldl_mirrorStep {e : Vector Byte 512} (he : ∀ (i : Nat) (_ : i < 255), e[i] = alphaPow i) {k i : Nat}
    (hik : i < 255 + k) (hi : i < 512) : ((List.range' 255 k).foldl mirrorStep e)[i] = alphaPow i := by
  induction k generalizing i with
  | zero => exact he i hik
  | succ k ih =>
    rw [List.range'_1_concat, List.foldl_append, List.foldl_cons, List.foldl_nil]
    simp only [mirrorStep, Vector.getElem_setIfInBounds]
    split
    next h =>
      have hcopy : alphaPow k = alphaPow i := (alphaPow_eq_iff k i).mpr (by omega)
      rw [← hcopy, Nat.add_sub_cancel_left, ← ih (i := k) (by omega) (by omega)]
      simp [Vector.getD, show k < 512 by omega]
    next h => exact ih (by omega) hi

theorem le_iterations (l : Log1) : 255 ≤ l.iterations := by cases l <;> decide

theorem constructedExp_eq (l : Log1) : constructedExp l = expTable := by
  have hloop (i : Nat) (hi : i < 255) : (buildLoop l).exp[i] = alphaPow i :=
    getElem_buildFor_exp (Nat.lt_of_lt_of_le hi (le_iterations l)) (by omega)
  apply Vector.ext
  intro i hi
  simp only [constructedExp, mirrorExp_eq]
  rw [getElem_foldl_mirrorStep hloop (by omega) hi, getElem_expTable hi]

/-- The logarithm of a byte under `LOG1` is an iteration of the first loop, and a later one records the same byte only after the
loop's end. -/
theorem logAt_iteration_bounds (l : Log1) {x : Byte} (hx : x ≠ 0) :
    (logAt (logTable l) x).toNat < l.iterations ∧ l.iterations ≤ (logAt (logTable l) x).toNat + 255 := by
  by_cases h1 : x = 1
  · rw [h1, logAt_logTable_one]
    cases l <;> decide
  · have hbounds := logAt_bounds l hx h1
    cases l <;> simp only [Log1.iterations] <;> omega

theorem logAt_constructedLog (l : Log1) {x : Byte} (hx : x ≠ 0) :
    logAt (constructedLog l) x = logAt (logTable l) x := by
  obtain ⟨hlt, hend⟩ := logAt_iteration_bounds l hx
  have hlast (j : Nat) (hij : (logAt (logTable l) x).toNat < j) (hj : j < l.iterations) :
      alphaPow j ≠ alphaPow (logAt (logTable l) x).toNat := by
    rw [Ne, alphaPow_eq_iff]
    omega
  have h := logAt_buildFor hlt hlast
  rw [alphaPow_logAt l hx, BitVec.ofNat_toNat, BitVec.setWidth_eq] at h
  exact h

/-- Settles O19: both tables of the construction hold the powers and the logarithms, as the transcribed ones do. -/
theorem resetTablesAreConstructed : Obligations.ResetTablesAreConstructed := by
  unfold Obligations.ResetTablesAreConstructed
  exact fun c => ⟨(constructedExp_eq c.log1).symm, fun x hx => (logAt_constructedLog c.log1 hx).symm⟩

/-! ## The facts R91 lists -/

/-- The nonzero bytes are the first 255 powers. -/
theorem ne_zero_iff_exists_alphaPow (x : Byte) : x ≠ 0 ↔ ∃ i < 255, alphaPow i = x :=
  ⟨fun hx => ⟨gfLog x, gfLog_lt hx, alphaPow_gfLog hx⟩, fun ⟨i, _, h⟩ => h ▸ alphaPow_ne_zero i⟩

theorem take_expTable : expTable.toList.take 255 = (List.range 255).map alphaPow := by
  apply List.ext_getElem
  · simp
  · intro i hi _
    have hi : i < 255 := by simpa using hi
    rw [List.getElem_take, List.getElem_map, List.getElem_range, Vector.getElem_toList, getElem_expTable]

theorem toNat_logAt_alphaPow (l : Log1) {i : Nat} (hlo : 1 ≤ i) (hhi : i ≤ 254) :
    (logAt (logTable l) (alphaPow i)).toNat = i := by
  have hne : alphaPow i ≠ 1 := by
    rw [← alphaPow_zero, Ne, alphaPow_eq_iff]
    omega
  rw [toNat_logAt_logTable l hne, gfLog_alphaPow, Nat.mod_eq_of_lt (by omega)]

/-- Settles O20: `EXP` holds the powers, `LOG` their exponents, and the 255 powers are the nonzero bytes. -/
theorem tableFacts : Obligations.TableFacts := by
  unfold Obligations.TableFacts
  refine ⟨fun l x => ?written, fun i hi => ?powers, ⟨?distinct, fun x => ?nonzero⟩, ?expSamples,
    fun l => ⟨?logSamples, fun x hx => ?expOfLog, fun i hlo hhi => ?logOfExp, ?logOfOne, ?bound, ?attained⟩⟩
  case written =>
    simp only [buildFor_x]
    constructor
    · intro hx
      obtain ⟨i, hi, h⟩ := (ne_zero_iff_exists_alphaPow x).mp hx
      exact ⟨i, Nat.lt_of_lt_of_le hi (le_iterations l), h⟩
    · rintro ⟨i, -, rfl⟩
      exact alphaPow_ne_zero i
  case powers =>
    rw [getD_expTable hi, getD_expTable (by omega), alphaPow_mod]
    exact ⟨rfl, rfl⟩
  case distinct =>
    rw [take_expTable]
    refine List.Nodup.map_on (fun i hi j hj h => ?_) List.nodup_range
    rw [alphaPow_eq_iff] at h
    rw [List.mem_range] at hi hj
    omega
  case nonzero => simp only [ne_zero_iff_exists_alphaPow, take_expTable, List.mem_map, List.mem_range]
  case expSamples => decide +kernel
  case logSamples => cases l <;> decide +kernel
  case expOfLog =>
    have hlt := (logAt (logTable l) x).isLt
    rw [getD_expTable (by omega), alphaPow_logAt l hx]
  case logOfExp => rw [getD_expTable (by omega), toNat_logAt_alphaPow l hlo hhi]
  case logOfOne => exact logAt_logTable_one l
  case bound =>
    cases l with
    | ff => exact fun x _ => Nat.le_of_lt_succ (logAt (logTable .ff) x).isLt
    | zero => exact fun x hx => Nat.le_of_lt_succ (gfLog_lt hx)
  case attained =>
    cases l with
    | ff => exact ⟨1, by decide, congrArg BitVec.toNat (logAt_logTable_one .ff)⟩
    | zero => exact ⟨0x8E, by decide, by decide +kernel⟩

end Sys2Proof.Machine

namespace Sys2Proof.Machine

/-! ## The encoder over the field product (R110)

`rsStep` reads its tables through the product alone, so on the constructed tables it is a step of the table-free division. -/

/-- One data byte's step of the division, with the field product in place of the tables. -/
def divStep (g r : Vector Byte 7) (d : Byte) : Vector Byte 7 :=
  Vector.ofFn fun j : Fin 7 => (if h : j.val < 6 then r[j.val + 1] else 0) ^^^ fieldMul g[j] (d ^^^ r[0])

theorem getElem_divStep_of_lt (g r : Vector Byte 7) (d : Byte) {j : Nat} (hj : j < 6) :
    (divStep g r d)[j] = r[j + 1] ^^^ fieldMul g[j] (d ^^^ r[0]) := by
  simp [divStep, hj]

theorem getElem_divStep_last (g r : Vector Byte 7) (d : Byte) :
    (divStep g r d)[6] = fieldMul g[6] (d ^^^ r[0]) := by
  simp [divStep]

theorem rsEncode_eq_foldl_divStep {e : Vector Byte 512} {l : Vector Byte 256}
    (hmul : ∀ a b, gfMultiply e l a b = fieldMul a b) (g : Vector Byte 7) (d : Vector Byte 19) :
    rsEncode e l g d = d.toList.foldl (divStep g) (Vector.replicate 7 0) := by
  have hstep : rsStep e l g = divStep g := by
    funext r d
    simp only [rsStep, divStep, hmul]
  rw [rsEncode, hstep]

/-! ## Long division, over data of any length

The data are taken in low-first order: prepending a byte is multiplying by x and adding it, which is the step of R110. -/

/-- The accumulator after the bytes of a low-first list. -/
def divRemainder (g : Vector Byte 7) : List Byte → Vector Byte 7
  | [] => Vector.replicate 7 0
  | d :: ds => divStep g (divRemainder g ds) d

/-- The factors of the steps: the coefficients of the quotient, low-first. -/
def divQuotient (g : Vector Byte 7) : List Byte → List Byte
  | [] => []
  | d :: ds => (d ^^^ (divRemainder g ds)[0]) :: divQuotient g ds

theorem divRemainder_reverse (g : Vector Byte 7) (ds : List Byte) :
    divRemainder g ds.reverse = ds.foldl (divStep g) (Vector.replicate 7 0) := by
  rw [List.foldl_eq_foldr_reverse]
  induction ds.reverse with
  | nil => rfl
  | cons d ds ih => rw [divRemainder, ih, List.foldr_cons]

@[simp] theorem length_divQuotient (g : Vector Byte 7) (ds : List Byte) : (divQuotient g ds).length = ds.length := by
  induction ds with
  | nil => rfl
  | cons d ds ih => rw [divQuotient, List.length_cons, ih, List.length_cons]

/-- The coefficient of x^e in q(x)·g(x), for a low-first q of any length. -/
def listProductCoeff (q : List Byte) (g : Vector Byte 7) (e : Nat) : Byte :=
  fieldSum ((List.range q.length).map fun i => if i ≤ e then fieldMul (q.getD i 0) (generatorCoeff g (e - i)) else 0)

theorem productCoeff_eq (q : Vector Byte 19) (g : Vector Byte 7) (e : Nat) :
    productCoeff q g e = listProductCoeff q.toList g e := by
  rw [listProductCoeff, Vector.length_toList, productCoeff]

@[simp] theorem fieldSum_cons (a : Byte) (l : List Byte) : fieldSum (a :: l) = a ^^^ fieldSum l := by
  rw [fieldSum, List.foldl_cons, fieldSum, BitVec.xor_comm, List.foldl_assoc]

theorem listProductCoeff_cons_zero (a : Byte) (q : List Byte) (g : Vector Byte 7) :
    listProductCoeff (a :: q) g 0 = fieldMul a (generatorCoeff g 0) := by
  have hzero (n : Nat) : fieldSum (List.replicate n 0#8) = 0#8 := by
    induction n with
    | zero => rfl
    | succ n ih => rw [List.replicate_succ, fieldSum_cons, ih, BitVec.xor_self]
  simp [listProductCoeff, List.range_succ_eq_map, Function.comp_def, hzero]

/-- x·q(x) + a times g(x) is x·q(x)·g(x) + a·g(x). -/
theorem listProductCoeff_cons_succ (a : Byte) (q : List Byte) (g : Vector Byte 7) (e : Nat) :
    listProductCoeff (a :: q) g (e + 1) = fieldMul a (generatorCoeff g (e + 1)) ^^^ listProductCoeff q g e := by
  simp [listProductCoeff, List.range_succ_eq_map, Function.comp_def]

/-- The coefficient of x^e in d(x)·x^7, for a low-first d of any length. -/
def listShiftedCoeff (ds : List Byte) (e : Nat) : Byte := if 7 ≤ e then ds.getD (e - 7) 0 else 0

theorem listShiftedCoeff_cons_succ (d : Byte) (ds : List Byte) (e : Nat) :
    listShiftedCoeff (d :: ds) (e + 1) = listShiftedCoeff ds e ^^^ if e = 6 then d else 0 := by
  rcases Nat.lt_trichotomy e 6 with he | rfl | he
  · simp [listShiftedCoeff, show ¬ 7 ≤ e by omega, show ¬ 6 ≤ e by omega, he.ne]
  · simp [listShiftedCoeff]
  · have hidx : e + 1 - 7 = (e - 7) + 1 := by omega
    simp [listShiftedCoeff, hidx, show 7 ≤ e by omega, show 6 ≤ e by omega, he.ne']

theorem shiftedDataCoeff_eq (d : Vector Byte 19) {e : Nat} (he : e ≤ 25) :
    shiftedDataCoeff d e = listShiftedCoeff d.toList.reverse e := by
  by_cases h7 : 7 ≤ e
  · have hlt : e - 7 < d.toList.length := by rw [Vector.length_toList]; omega
    have hidx : d.toList.length - 1 - (e - 7) = 25 - e := by rw [Vector.length_toList]; omega
    simp only [shiftedDataCoeff, listShiftedCoeff, h7, he, and_self, if_true, List.getD, List.getElem?_reverse hlt, hidx]
  · simp [shiftedDataCoeff, listShiftedCoeff, h7]

theorem remainderCoeff_of_lt (r : Vector Byte 7) {e : Nat} (he : e < 7) : remainderCoeff r e = r[6 - e] := by
  rw [remainderCoeff, if_pos he, getD_toList r (by omega)]

theorem remainderCoeff_of_le (r : Vector Byte 7) {e : Nat} (he : 7 ≤ e) : remainderCoeff r e = 0 :=
  if_neg (by omega)

theorem generatorCoeff_of_lt (g : Vector Byte 7) {e : Nat} (he : e < 7) : generatorCoeff g e = g[6 - e] := by
  rw [generatorCoeff, if_neg (by omega), if_pos he, getD_toList g (by omega)]

theorem generatorCoeff_of_gt (g : Vector Byte 7) {e : Nat} (he : 7 < e) : generatorCoeff g e = 0 := by
  rw [generatorCoeff, if_neg (by omega), if_neg (by omega)]

theorem remainderCoeff_replicate_zero (e : Nat) : remainderCoeff (Vector.replicate 7 0) e = 0 := by
  by_cases he : e < 7
  · rw [remainderCoeff_of_lt _ he, Vector.getElem_replicate]
  · exact remainderCoeff_of_le _ (by omega)

theorem remainderCoeff_divStep_zero (g r : Vector Byte 7) (d : Byte) :
    remainderCoeff (divStep g r d) 0 = fieldMul (d ^^^ r[0]) (generatorCoeff g 0) := by
  rw [remainderCoeff_of_lt _ (by decide), generatorCoeff_of_lt _ (by decide), getElem_divStep_last, fieldMul_comm]

/-- A step leaves x·r(x) + d·x^7 less the factor's multiple of g(x); at x^7 the two cancel, since g(x) is monic. -/
theorem remainderCoeff_divStep_succ (g r : Vector Byte 7) (d : Byte) (e : Nat) :
    remainderCoeff (divStep g r d) (e + 1) =
      fieldMul (d ^^^ r[0]) (generatorCoeff g (e + 1)) ^^^ remainderCoeff r e ^^^ if e = 6 then d else 0 := by
  rcases Nat.lt_trichotomy e 6 with he | rfl | he
  · have hidx : 6 - (e + 1) + 1 = 6 - e := by omega
    rw [remainderCoeff_of_lt _ (by omega), remainderCoeff_of_lt _ (by omega), generatorCoeff_of_lt _ (by omega),
      getElem_divStep_of_lt _ _ _ (by omega), if_neg he.ne, fieldMul_comm, BitVec.xor_comm]
    simp only [hidx]
    exact (BitVec.xor_zero).symm
  · rw [remainderCoeff_of_le _ (by decide), remainderCoeff_of_lt _ (by decide)]
    calc 0#8
      _ = (d ^^^ r[0]) ^^^ (d ^^^ r[0]) := BitVec.xor_self.symm
      _ = d ^^^ r[0] ^^^ r[0] ^^^ d := by ac_rfl
      _ = fieldMul (d ^^^ r[0]) 1#8 ^^^ r[0] ^^^ d := by rw [fieldMul_one]
  · rw [remainderCoeff_of_le _ (by omega), remainderCoeff_of_le _ (by omega), generatorCoeff_of_gt _ (by omega),
      if_neg he.ne']
    simp

/-- A term added to both sides of a sum cancels. -/
theorem xor_xor_of_common (m p r t : Byte) : (m ^^^ p) ^^^ (m ^^^ r ^^^ t) = p ^^^ r ^^^ t := by
  calc (m ^^^ p) ^^^ (m ^^^ r ^^^ t)
    _ = (m ^^^ m) ^^^ (p ^^^ r ^^^ t) := by ac_rfl
    _ = p ^^^ r ^^^ t := by rw [BitVec.xor_self, BitVec.zero_xor]

/-- Long division: d(x)·x^7 = q(x)·g(x) + r(x), by induction on the data bytes (R112). -/
theorem listShiftedCoeff_eq (g : Vector Byte 7) (ds : List Byte) (e : Nat) :
    listShiftedCoeff ds e = listProductCoeff (divQuotient g ds) g e ^^^ remainderCoeff (divRemainder g ds) e := by
  induction ds generalizing e with
  | nil =>
    rw [divRemainder, remainderCoeff_replicate_zero]
    simp [listShiftedCoeff, listProductCoeff, divQuotient, fieldSum]
  | cons d ds ih =>
    cases e with
    | zero =>
      rw [divQuotient, divRemainder, listProductCoeff_cons_zero, remainderCoeff_divStep_zero, BitVec.xor_self]
      rfl
    | succ e =>
      rw [divQuotient, divRemainder, listShiftedCoeff_cons_succ, listProductCoeff_cons_succ, remainderCoeff_divStep_succ, ih]
      exact (xor_xor_of_common _ _ _ _).symm

/-- The quotient is the factors of the steps. -/
theorem isRemainder_rsEncode {e : Vector Byte 512} {l : Vector Byte 256}
    (hmul : ∀ a b, gfMultiply e l a b = fieldMul a b) (g : Vector Byte 7) (d : Vector Byte 19) :
    IsRemainder g d (rsEncode e l g d) := by
  refine ⟨⟨(divQuotient g d.toList.reverse).toArray, by simp⟩, fun k hk => ?_⟩
  rw [shiftedDataCoeff_eq d hk, productCoeff_eq, rsEncode_eq_foldl_divStep hmul, ← divRemainder_reverse]
  exact listShiftedCoeff_eq g d.toList.reverse k

/-- Settles O25: on the constructed tables the accumulator is the remainder of the long division. -/
theorem rsencComputesTheRemainder : Obligations.RsencComputesTheRemainder := by
  unfold Obligations.RsencComputesTheRemainder
  refine ⟨hasWord_encode (i := .rsenc) rfl, faultsOnReserved .rsenc, fun s => ⟨fun hd => ?noValue, fun hd => ?value⟩⟩
  case noValue => exact whenValue_fault hd _ _ _
  case value =>
    exact ⟨rsEncode s.exp s.log s.gen s.data, whenValue_pass hd _ _ _, fun h => isRemainder_rsEncode h.gfMultiply_eq _ _⟩

end Sys2Proof.Machine

namespace Sys2Proof.Machine

/-! ## The consequences of R112 -/

theorem divStep_zipWith_xor (g r r' : Vector Byte 7) (d d' : Byte) :
    divStep g (Vector.zipWith (· ^^^ ·) r r') (d ^^^ d') = Vector.zipWith (· ^^^ ·) (divStep g r d) (divStep g r' d') := by
  have hfactor : (d ^^^ d') ^^^ (r[0] ^^^ r'[0]) = (d ^^^ r[0]) ^^^ (d' ^^^ r'[0]) := by ac_rfl
  apply Vector.ext
  intro j hj
  by_cases hlt : j < 6
  · simp only [getElem_divStep_of_lt, hlt, Vector.getElem_zipWith, hfactor, fieldMul_xor_right]
    ac_rfl
  · obtain rfl : j = 6 := by omega
    simp only [getElem_divStep_last, Vector.getElem_zipWith, hfactor, fieldMul_xor_right]

theorem foldl_divStep_zipWith_xor (g r r' : Vector Byte 7) {u v : List Byte} (hlen : u.length = v.length) :
    (List.zipWith (· ^^^ ·) u v).foldl (divStep g) (Vector.zipWith (· ^^^ ·) r r') =
      Vector.zipWith (· ^^^ ·) (u.foldl (divStep g) r) (v.foldl (divStep g) r') := by
  induction u generalizing v r r' with
  | nil =>
    rw [List.eq_nil_of_length_eq_zero hlen.symm]
    rfl
  | cons a u ih =>
    cases v with
    | nil => cases hlen
    | cons b v =>
      simp only [List.zipWith_cons_cons, List.foldl_cons, divStep_zipWith_xor]
      exact ih _ _ (Nat.succ.inj hlen)

theorem divStep_zero_accumulator (g : Vector Byte 7) (d : Byte) :
    divStep g (Vector.replicate 7 0) d = g.map (fieldMul · d) := by
  apply Vector.ext
  intro j hj
  simp [divStep]

theorem foldl_divStep_replicate_zero (g : Vector Byte 7) (n : Nat) :
    (List.replicate n 0).foldl (divStep g) (Vector.replicate 7 0) = Vector.replicate 7 0 := by
  have hstep : divStep g (Vector.replicate 7 0) 0 = Vector.replicate 7 0 := by
    rw [divStep_zero_accumulator]
    apply Vector.ext
    simp
  induction n with
  | zero => rfl
  | succ n ih => rw [List.replicate_succ, List.foldl_cons, hstep, ih]

/-- Settles O26: on the constructed tables the encoder is the table-free division, whose step is linear. -/
theorem rsEncodeIsLinear : Obligations.RsEncodeIsLinear := by
  unfold Obligations.RsEncodeIsLinear
  intro l g f hf
  have heq (l' : Log1) := rsEncode_eq_foldl_divStep (gfMultiply_eq_fieldMul l') g
  subst hf
  refine ⟨?zero, fun u v => ?linear, ?lastByte, fun l' u => (heq l' u).trans (heq l u).symm⟩ <;> simp only [heq]
  case zero => exact foldl_divStep_replicate_zero g 19
  case linear =>
    have hzero : Vector.zipWith (· ^^^ ·) (Vector.replicate 7 (0 : Byte)) (Vector.replicate 7 0) = Vector.replicate 7 0 := by
      simp
    rw [Vector.toList_zipWith, ← foldl_divStep_zipWith_xor, hzero]
    exact u.length_toList.trans v.length_toList.symm
  case lastByte =>
    have hlist : ((Vector.replicate 19 (0 : Byte)).set 18 1).toList = List.replicate 18 0 ++ [1] := rfl
    rw [hlist, List.foldl_append, foldl_divStep_replicate_zero, List.foldl_cons, List.foldl_nil, divStep_zero_accumulator]
    simp

end Sys2Proof.Machine

namespace Sys2Proof.Machine

/-! ## Packing a stream of bytes that starts on a nibble (R44, R70, R122)

The mode indicator has four bits, so each byte behind it lies across two codewords: codeword `n` is the low nibble of byte
`n` of the stream 4, count, payload, then the high nibble of the byte after it. -/

/-- The byte packed from eight emitted bits is the byte that emitted them. -/
theorem packBytes_emitByte (v : Byte) (bits : List Bool) : packBytes (emitByte v ++ bits) = v :: packBytes bits := by
  refine congrArg (· :: packBytes bits) (BitVec.eq_of_getLsbD_eq fun i hi => ?_)
  interval_cases i <;> simp only [BitVec.getLsbD_append, BitVec.getLsbD_ofBool] <;> simp

/-- The low nibble of a byte, the most significant bit first. -/
def lowNibble (v : Byte) : List Bool := [v.getLsbD 3, v.getLsbD 2, v.getLsbD 1, v.getLsbD 0]

/-- The codeword two bytes in a row share: the low nibble of the first, then the high nibble of the second. -/
def straddle (x y : Byte) : Byte := x <<< 4 ||| y >>> 4

theorem toNat_straddle (x y : Byte) : (straddle x y).toNat = ((x.toNat &&& 0xF) <<< 4) ||| (y.toNat >>> 4) := by
  have hx : x.toNat <<< 4 % 2 ^ 8 = (x.toNat &&& 0xF) <<< 4 := by
    rw [Nat.and_two_pow_sub_one_eq_mod _ 4, Nat.shiftLeft_eq, Nat.shiftLeft_eq]
    omega
  simp only [straddle, BitVec.toNat_or, BitVec.toNat_shiftLeft, BitVec.toNat_ushiftRight, hx]

theorem toNat_straddle_eq_add (x y : Byte) : (straddle x y).toNat = x.toNat % 16 * 16 + y.toNat / 16 := by
  have hx : x.toNat &&& 0xF = x.toNat % 16 := Nat.and_two_pow_sub_one_eq_mod _ 4
  have hy : y.toNat >>> 4 < 2 ^ 4 := by have := y.isLt; omega
  rw [toNat_straddle, ← Nat.shiftLeft_add_eq_or_of_lt hy, hx, Nat.shiftLeft_eq, Nat.shiftRight_eq_div_pow]

theorem lowNibble_append_emitByte (x y : Byte) : lowNibble x ++ emitByte y = emitByte (straddle x y) ++ lowNibble y := by
  simp [lowNibble, emitByte, straddle]

theorem packBytes_lowNibble_emitByte (x y : Byte) (bits : List Bool) :
    packBytes (lowNibble x ++ (emitByte y ++ bits)) = straddle x y :: packBytes (lowNibble y ++ bits) := by
  rw [← List.append_assoc, lowNibble_append_emitByte, List.append_assoc, packBytes_emitByte]

/-- The four zero bits of the terminator complete the last byte. -/
theorem packBytes_lowNibble_terminator (x : Byte) :
    packBytes (lowNibble x ++ List.replicate 4 false) = [straddle x 0] := by
  have h : lowNibble x ++ List.replicate 4 false = emitByte (straddle x 0) ++ [] := by
    simp [lowNibble, emitByte, straddle]
  rw [h, packBytes_emitByte]
  rfl

/-- The codewords of a stream of bytes that starts with a low nibble. -/
def straddled (bs : List Byte) : List Byte :=
  (List.range bs.length).map fun n => straddle (bs.getD n 0) (bs.getD (n + 1) 0)

@[simp] theorem length_straddled (bs : List Byte) : (straddled bs).length = bs.length := by simp [straddled]

theorem straddled_cons_cons (x y : Byte) (bs : List Byte) :
    straddled (x :: y :: bs) = straddle x y :: straddled (y :: bs) := by
  simp [straddled, List.range_succ_eq_map]

theorem packBytes_lowNibble_flatMap (x : Byte) (bs : List Byte) :
    packBytes (lowNibble x ++ (bs.flatMap emitByte ++ List.replicate 4 false)) = straddled (x :: bs) := by
  induction bs generalizing x with
  | nil => exact packBytes_lowNibble_terminator x
  | cons y bs ih =>
    rw [List.flatMap_cons, List.append_assoc, packBytes_lowNibble_emitByte, ih, straddled_cons_cons]

/-! ## The data codewords (R71, R122) -/

/-- The bytes of the header: the mode indicator in the low nibble of the first, the count and the payload. -/
def headerBytes (p : List Byte) : List Byte := 4 :: BitVec.ofNat 8 p.length :: p

@[simp] theorem length_headerBytes (p : List Byte) : (headerBytes p).length = p.length + 2 := rfl

/-- The count of a payload fits its eight bits. -/
theorem toNat_count {p : List Byte} (hp : p.length ≤ 17) : (BitVec.ofNat 8 p.length).toNat = p.length := by
  rw [BitVec.toNat_ofNat, Nat.mod_eq_of_lt (by omega)]

theorem headerBits_eq (p : List Byte) :
    headerBits p = lowNibble 4 ++ (BitVec.ofNat 8 p.length :: p).flatMap emitByte := rfl

/-- A payload of at most 17 bytes leaves room for the whole terminator, which ends on a byte. -/
theorem alignBits_terminate_headerBits {p : List Byte} (hp : p.length ≤ 17) :
    alignBits (terminate (headerBits p)) = headerBits p ++ List.replicate 4 false := by
  have hterm : terminate (headerBits p) = headerBits p ++ List.replicate 4 false := by
    have hroom : min 4 (Config.DATABITS - (12 + 8 * p.length)) = 4 := by simp only [Config.DATABITS]; omega
    rw [terminate, length_headerBits, hroom]
  have hwhole : (8 - (12 + 8 * p.length + 4) % 8) % 8 = 0 := by omega
  rw [hterm, alignBits, List.length_append, length_headerBits, List.length_replicate, hwhole, List.replicate_zero,
    List.append_nil]

theorem assembleList_eq (t : List CodeUnit) :
    assembleList t = straddled (headerBytes (payload t)) ++ padBytes (17 - (payload t).length) := by
  have hp := length_payload_le t
  have hbytes : packBytes (alignBits (terminate (headerBits (payload t)))) = straddled (headerBytes (payload t)) := by
    rw [alignBits_terminate_headerBits hp, headerBits_eq, List.append_assoc, packBytes_lowNibble_flatMap, headerBytes]
  have hpad : Config.NDATA - (straddled (headerBytes (payload t))).length = 17 - (payload t).length := by
    simp only [length_straddled, length_headerBytes, Config.NDATA]
    omega
  simp only [assembleList, hbytes, hpad]

theorem toList_assemble (t : List CodeUnit) : (assemble t).toList = assembleList t := by
  apply List.ext_getElem
  · simp
  · intros
    simp [assemble]

/-- Codewords 0 to `L + 1`, `L` the length of the payload. -/
theorem getD_assemble_of_le {t : List CodeUnit} {n : Nat} (hn : n ≤ (payload t).length + 1) :
    (assemble t).toList.getD n 0 =
      straddle ((headerBytes (payload t)).getD n 0) ((headerBytes (payload t)).getD (n + 1) 0) := by
  have h : n < (straddled (headerBytes (payload t))).length := by
    rw [length_straddled, length_headerBytes]
    omega
  rw [toList_assemble, assembleList_eq, List.getD_append _ _ _ _ h, List.getD_eq_getElem _ _ h]
  simp [straddled]

/-- The codewords after `L + 1` are pad bytes. -/
theorem getD_assemble_of_lt {t : List CodeUnit} {n : Nat} (hn : (payload t).length + 1 < n) (h19 : n < 19) :
    (assemble t).toList.getD n 0 = if (n - ((payload t).length + 2)) % 2 = 0 then Config.PAD0 else Config.PAD1 := by
  have hlen : (straddled (headerBytes (payload t))).length = (payload t).length + 2 := by simp
  have hpad : n - ((payload t).length + 2) < 17 - (payload t).length := by omega
  rw [toList_assemble, assembleList_eq, List.getD_append_right _ _ _ _ (by omega), hlen]
  simp [padBytes, hpad]

theorem payloadValues_eq (t : List CodeUnit) : payloadValues t = (payload t).map BitVec.toNat := by
  simp only [payloadValues, payload, List.map_map]
  rfl

/-- The first four cases of R71 are one: each of those codewords lies across two header bytes, the last across the last
payload byte and the terminator. -/
theorem layoutByte_of_le {p : List Byte} (hp : p.length ≤ 17) {n : Nat} (hn : n ≤ p.length + 1) :
    layoutByte (p.map BitVec.toNat) n =
      (straddle ((headerBytes p).getD n 0) ((headerBytes p).getD (n + 1) 0)).toNat := by
  have hcount := toNat_count hp
  have hget (i : Nat) : (p.map BitVec.toNat).getD i 0 = (p.getD i 0).toNat := List.getD_map (d := (0 : Byte)) ..
  rw [toNat_straddle]
  simp only [layoutByte, hget, List.length_map]
  match n with
  | 0 => simp [headerBytes, hcount]
  | 1 => simp [headerBytes, hcount]
  | n + 2 =>
    by_cases hle : n + 2 ≤ p.length
    · have hnext : n + 1 < p.length := hle
      simp [headerBytes, hle, hnext]
    · have hlast : p.length = n + 1 := by omega
      simp [headerBytes, hlast]

/-- The last two cases of R71 are the pad bytes. -/
theorem layoutByte_of_lt {p : List Nat} {n : Nat} (hn : p.length + 1 < n) :
    layoutByte p n = if (n - (p.length + 2)) % 2 = 0 then 0xEC else 0x11 := by
  have h0 : n ≠ 0 := by omega
  have h1 : n ≠ 1 := by omega
  have hle : ¬ n ≤ p.length := by omega
  have hlast : n ≠ p.length + 1 := by omega
  simp only [layoutByte, if_neg h0, if_neg h1, if_neg hle, if_neg hlast]

/-- The codewords of a text are those R71 lays out. -/
theorem toNat_getD_assemble (t : List CodeUnit) {n : Nat} (hn : n < 19) :
    ((assemble t).toList.getD n 0).toNat = layoutByte (payloadValues t) n := by
  rw [payloadValues_eq]
  by_cases hle : n ≤ (payload t).length + 1
  · rw [getD_assemble_of_le hle, layoutByte_of_le (length_payload_le t) hle]
  · rw [not_le] at hle
    rw [getD_assemble_of_lt hle hn, layoutByte_of_lt (by simpa using hle), List.length_map]
    split <;> rfl

/-- The eight bits of the count lie across the first two codewords (R71). -/
theorem countField_assemble (t : List CodeUnit) :
    ((assemble t).toList.getD 0 0).toNat * 16 % 256 + ((assemble t).toList.getD 1 0).toNat / 16 = (payload t).length := by
  have hp := length_payload_le t
  have hpayload := ((headerBytes (payload t)).getD 2 0).isLt
  have hmode : (headerBytes (payload t)).getD 0 0 = 4 := rfl
  have hlen : (headerBytes (payload t)).getD 1 0 = BitVec.ofNat 8 (payload t).length := rfl
  rw [getD_assemble_of_le (Nat.zero_le _), getD_assemble_of_le (Nat.le_add_left 1 _), toNat_straddle_eq_add,
    toNat_straddle_eq_add, hmode, hlen, toNat_count hp]
  omega

/-! ## The payload is all that is read of a text (R122, R124, R125) -/

/-- Two texts with the same payload have the same codewords. -/
theorem assemble_congr {t u : List CodeUnit} (h : payload t = payload u) : assemble t = assemble u := by
  simp only [assemble, assembleList, h]

theorem payload_take (t : List CodeUnit) : payload (t.take 17) = payload t := by
  simp [payload, List.take_take, Config.CAP]

theorem payload_append_of_le {t : List CodeUnit} (h : 17 ≤ t.length) (u : List CodeUnit) : payload (t ++ u) = payload t := by
  simp only [payload, List.take_append_of_le_length h]

theorem payload_eq_of_payloadValues_eq {t u : List CodeUnit} (h : payloadValues t = payloadValues u) :
    payload t = payload u := by
  rw [payloadValues_eq, payloadValues_eq] at h
  exact List.map_injective_iff.mpr (fun _ _ => BitVec.eq_of_toNat_eq) h

/-! ## `TXCLR`, `TXPUSH` and `ASSEMBLE` (R120, R121, R123) -/

/-- Settles O27: the effect writes `TXT` only. -/
theorem txclrEmptiesTheText : Obligations.TxclrEmptiesTheText := by
  unfold Obligations.TxclrEmptiesTheText
  exact ⟨hasWord_encode (i := .txclr) rfl, faultsOnReserved .txclr, fun s => ⟨rfl, rfl⟩⟩

theorem hasWord_txpush (imm : BitVec 16) : HasWord (.txpush imm.toNat) (0x11000000 ||| imm.setWidth 32) := by
  have hword : encode (.txpush imm.toNat) = 0x11000000 ||| imm.setWidth 32 := by
    rw [encode, BitVec.ofNat_toNat, BitVec.setWidth_eq]
    rfl
  exact hword ▸ hasWord_encode (i := .txpush imm.toNat) (decide_eq_true imm.isLt)

/-- Settles O28: the unit is appended, and only the first 17 units are payload. -/
theorem txpushAppendsTheCodeUnit : Obligations.TxpushAppendsTheCodeUnit := by
  unfold Obligations.TxpushAppendsTheCodeUnit
  refine ⟨faultsOnReserved .txpush, fun s imm h => assemble_congr (payload_append_of_le h _), hasWord_txpush,
    fun imm s => ⟨fun hfits => ?stored, fun hwide => ?refused⟩⟩
  case stored => exact ⟨s.txt ++ [imm], whenFits_pass hfits _ _ _, by simp, by simp, by simp⟩
  case refused => exact whenFits_fault hwide _ _ _

/-- Settles O29: codewords 0 to `L + 1` are those of the header bytes, and the others are pad bytes. -/
theorem assembleLaysOutTheCodewords : Obligations.AssembleLaysOutTheCodewords := by
  unfold Obligations.AssembleLaysOutTheCodewords
  exact ⟨hasWord_encode (i := .assemble) rfl, faultsOnReserved .assemble,
    fun s => ⟨assemble s.txt, rfl, fun _ hn => toNat_getD_assemble s.txt hn⟩⟩

/-- Settles O30: a text and its first 17 units have one payload, of 17 bytes if the text is not shorter. -/
theorem oversizedTextIsTruncatedSilently : Obligations.OversizedTextIsTruncatedSilently := by
  unfold Obligations.OversizedTextIsTruncatedSilently
  intro s h
  have htake : assemble (s.txt.take 17) = assemble s.txt := assemble_congr (payload_take s.txt)
  have hlen : (payload s.txt).length = 17 := by simpa [payload] using h
  have hsame : assembleEffect { s with txt := s.txt.take 17 } = { assembleEffect s with txt := s.txt.take 17 } := by
    simp only [assembleEffect, State.setData, htake]
  exact ⟨htake.symm, assembleEffect s, rfl, htake.symm, State.setData_fault s _, congrArg Host.Outcome.next hsame,
    (countField_assemble s.txt).trans hlen⟩

/-- Settles O31: the payload is determined by the values of its bytes. -/
theorem onlyTheLowBytesAreAssembled : Obligations.OnlyTheLowBytesAreAssembled := by
  unfold Obligations.OnlyTheLowBytesAreAssembled
  exact ⟨fun _ _ h => assemble_congr (payload_eq_of_payloadValues_eq h), rfl⟩

end Sys2Proof.Machine

namespace Sys2Proof.Machine

/-! ## A command in its phase and out of it (R140, R215)

The other direction of `exec_cases`: what a command does when its checks pass, and when its phase is not the one it requires. -/

/-- A command whose checks all pass has its effect. -/
theorem exec_of_completes {i : Instr} {s : State} (h : Completes i s) : exec i s = .next (effectOf i s) := by
  obtain ⟨hfits, hphase, hvalue⟩ := h
  cases i with
  | nop | gfexp | gfmul | txclr | assemble | gridclr | fmtenc | encode => rfl
  | txpush imm | sethint imm => exact whenFits_pass (of_decide_eq_true hfits) _ _ _
  | gflog a | rsenc => exact whenValue_pass (by simpa [readsNoValue] using hvalue) _ _ _
  | finder | timing | darkmod | reserve | finalize | render => exact whenPhase_pass (hphase _ rfl) _ _
  | place | fmtwrite =>
    exact (whenPhase_pass (hphase _ rfl) _ _).trans (whenValue_pass (by simpa [readsNoValue] using hvalue) _ _ _)

/-- A command out of its phase takes `PhaseOrder`, whatever else it would check (R216). -/
theorem exec_of_phase_ne {i : Instr} {s : State} {p : BitVec 3} (hi : requiredPhase? i = some p) (h : s.status.phase ≠ p) :
    exec i s = .next (s.takeFault .phaseOrder (encode i)) := by
  cases i with
  | finder | timing | darkmod | reserve | place | fmtwrite | finalize | render =>
    cases hi
    exact whenPhase_fault h _ _
  | _ => cases hi

/-- Of the commands with a phase only `PLACE` and `FMTWRITE` read an element that may hold no value. -/
theorem readsNoValue_of_requiredPhase? {i : Instr} {s : State} {p : BitVec 3} (hi : requiredPhase? i = some p)
    (hplace : i = .place → s.status.dataV = true ∧ s.status.eccV = true)
    (hfmt : i = .fmtwrite → s.status.fmtV = true) : readsNoValue s i = false := by
  cases i with
  | place => simp [readsNoValue, hplace rfl]
  | fmtwrite => simp [readsNoValue, hfmt rfl]
  | finder | timing | darkmod | reserve | finalize | render => rfl
  | _ => cases hi

/-- Every operand fits that is not a code unit or a hint, so that of any command with a phase. -/
theorem fits_of_requiredPhase? {i : Instr} {p : BitVec 3} (hi : requiredPhase? i = some p) (c : Config) :
    i.fits c = true := by
  cases i with
  | txpush | sethint => cases hi
  | _ => rfl

/-- One row of R140: a command with a phase, and the phase its effect leaves. -/
theorem exec_of_requiredPhase? {i : Instr} {s : State} {p q : BitVec 3} (hi : requiredPhase? i = some p)
    (hq : s.status.phase = p → (effectOf i s).status.phase = q) :
    (s.status.phase ≠ p → exec i s = .next { s with fault := .phaseOrder, finfo := encode i }) ∧
    (s.status.phase = p → (i = .place → s.status.dataV = true ∧ s.status.eccV = true) →
      (i = .fmtwrite → s.status.fmtV = true) →
      ∃ t, exec i s = .next t ∧ t.fault = s.fault ∧ t.status.phase = q) := by
  refine ⟨exec_of_phase_ne hi, fun hp hplace hfmt => ?_⟩
  have hcompl : Completes i s :=
    ⟨fits_of_requiredPhase? hi _, fun r hr => (by rw [hi] at hr; cases hr; exact hp),
      readsNoValue_of_requiredPhase? hi hplace hfmt⟩
  obtain ⟨-, -, -, -, -, hfault, -⟩ := effectOf_inputs i s
  exact ⟨effectOf i s, exec_of_completes hcompl, hfault, hq hp⟩

theorem encodeEffect_phase (s : State) : (encodeEffect s).status.phase = 7 := by rw [encodeEffect_eq]

/-- Settles O44: a row for each command with a phase, and the two effects that set the phase from anywhere. -/
theorem layoutPhasesRunInOrder : Obligations.LayoutPhasesRunInOrder := by
  unfold Obligations.LayoutPhasesRunInOrder
  refine ⟨fun s => ?rows, fun s => ⟨⟨gridclrEffect s, rfl, rfl, rfl⟩, encodeEffect s, rfl, ?fault, encodeEffect_phase s⟩⟩
  case rows =>
    iterate 8 rw [List.forall_mem_cons]
    exact ⟨exec_of_requiredPhase? rfl fun _ => rfl, exec_of_requiredPhase? rfl fun _ => rfl,
      exec_of_requiredPhase? rfl fun _ => rfl, exec_of_requiredPhase? rfl fun _ => rfl,
      exec_of_requiredPhase? rfl fun _ => rfl, exec_of_requiredPhase? rfl fun _ => rfl,
      exec_of_requiredPhase? rfl fun _ => rfl, exec_of_requiredPhase? rfl fun h => h, List.forall_mem_nil _⟩
  case fault =>
    obtain ⟨-, -, -, -, -, hfault, -⟩ := effectOf_inputs .encode s
    exact hfault

/-! ## The finalized grid is kept (R157) -/

/-- In phase 7 the commands that write the grid, the latch or the phase are out of their phase, but for `GRIDCLR` and
`ENCODE`. -/
theorem Completes.keeps_layout {i : Instr} {s : State} (hc : Completes i s) (h7 : s.status.phase = 7) (hg : i ≠ .gridclr)
    (he : i ≠ .encode) :
    (effectOf i s).grid = s.grid ∧ (effectOf i s).rsv = s.rsv ∧ (effectOf i s).status.phase = 7 := by
  cases i with
  | gridclr => exact absurd rfl hg
  | encode => exact absurd rfl he
  | finder | timing | darkmod | reserve | place | fmtwrite | finalize =>
    exact absurd h7 (hc.phase_ne_seven rfl (by decide))
  | nop | gfexp | gflog | gfmul | txclr | txpush | assemble | rsenc | fmtenc | sethint | render =>
    simp [effectOf, assembleEffect, rsencEffect, fmtencEffect, renderEffect, h7]

/-- Settles O47: a command that completes keeps the layout, and a fault keeps everything but the fault registers. -/
theorem finalizedGridIsImmutable : Obligations.FinalizedGridIsImmutable := by
  unfold Obligations.FinalizedGridIsImmutable
  intro i s t h7 h hg he
  rcases exec_cases h with ⟨rfl, hc⟩ | ⟨c, -, rfl⟩
  · exact hc.keeps_layout h7 hg he
  · exact ⟨rfl, rfl, h7⟩

/-- Settles O33: of the two commands that may change the phase of a finalized grid, `ENCODE` sets it to 7 again. -/
theorem gridclrAllocatesTheGrid : Obligations.GridclrAllocatesTheGrid := by
  unfold Obligations.GridclrAllocatesTheGrid
  refine ⟨hasWord_encode (i := .gridclr) rfl, faultsOnReserved .gridclr,
    fun s => ⟨Grid.fill .unset, rfl, Grid.look_fill _⟩, fun i s t h7 h hne => ?_⟩
  by_contra hg
  have he : i ≠ .encode := by
    rintro rfl
    obtain rfl : encodeEffect s = t := Host.Outcome.next.inj h
    exact hne (encodeEffect_phase s)
  obtain ⟨-, -, hkeep⟩ := finalizedGridIsImmutable i s t h7 h hg he
  exact hne hkeep

end Sys2Proof.Machine

namespace Sys2Proof.Machine

/-! ## What each layout command but `PLACE` and `FMTWRITE` writes (R143 to R150, R157) -/

theorem functionCell_of_isFinder {p : Pos} (h : p.isFinder = true) :
    functionCell p = if finderRing p = 2 ∨ finderRing p = 4 then .light else .dark := by simp [functionCell, h]

/-- The cells of row 6 and of column 6 at the indices 8 to 12 are timing cells, `Dark` at the even ones (R144). -/
theorem functionCell_timing : ∀ i : Fin 21, 8 ≤ i.val → i.val ≤ 12 →
    (Pos.isTiming ⟨6, i⟩ = true ∧ functionCell ⟨6, i⟩ = if i.val % 2 = 0 then .dark else .light) ∧
    (Pos.isTiming ⟨i, 6⟩ = true ∧ functionCell ⟨i, 6⟩ = if i.val % 2 = 0 then .dark else .light) := by decide

/-- Settles O34: the cells `FINDER` writes take their patterns, which the ring determines. -/
theorem finderDrawsThreePatterns : Obligations.FinderDrawsThreePatterns := by
  unfold Obligations.FinderDrawsThreePatterns
  refine ⟨hasWord_encode (i := .finder) rfl, faultsOnReserved .finder, fun s => ⟨exec_of_phase_ne rfl, fun h => ?_⟩⟩
  refine ⟨s.grid.write finderWrites, whenPhase_pass h _ _, fun p => ?_⟩
  rw [look_write_finderWrites]
  split
  next hp => exact functionCell_of_isFinder hp
  next => rfl

/-- Settles O35: the cells `TIMING` writes take their patterns, which alternate. -/
theorem timingAlternates : Obligations.TimingAlternates := by
  unfold Obligations.TimingAlternates
  refine ⟨hasWord_encode (i := .timing) rfl, faultsOnReserved .timing, fun s => ⟨exec_of_phase_ne rfl, fun h => ?_⟩⟩
  refine ⟨s.grid.write timingWrites, whenPhase_pass h _ _, fun i hlo hhi => ?written, fun p hp => ?kept⟩
  case written =>
    obtain ⟨⟨hrow, hrowCell⟩, hcol, hcolCell⟩ := functionCell_timing i hlo hhi
    rw [look_write_timingWrites, look_write_timingWrites, if_pos hrow, if_pos hcol]
    exact ⟨hrowCell, hcolCell⟩
  case kept => rw [look_write_timingWrites, hp, if_neg Bool.false_ne_true]

/-- Settles O36: the one write of `DARKMOD`. -/
theorem darkmodSetsOneCell : Obligations.DarkmodSetsOneCell := by
  unfold Obligations.DarkmodSetsOneCell
  refine ⟨hasWord_encode (i := .darkmod) rfl, faultsOnReserved .darkmod, fun s => ⟨exec_of_phase_ne rfl, fun h => ?_⟩⟩
  refine ⟨s.grid.write darkmodWrites, whenPhase_pass h _ _, ?written, fun p hp => ?kept⟩
  case written => rw [look_write_darkmodWrites, if_pos ((isDarkModule_iff _).mpr rfl)]
  case kept => rw [look_write_darkmodWrites, if_neg (mt (isDarkModule_iff p).mp hp)]

/-- Settles O37: the latch takes the predicate of the parameters, and the grid is none of the fields written. -/
theorem reserveLatchesThePredicate : Obligations.ReserveLatchesThePredicate := by
  unfold Obligations.ReserveLatchesThePredicate
  refine ⟨hasWord_encode (i := .reserve) rfl, faultsOnReserved .reserve, fun s => ⟨exec_of_phase_ne rfl, fun h => ?_⟩,
    by decide +kernel⟩
  exact ⟨s.cfg.reserved, whenPhase_pass h _ _, fun p => rfl⟩

/-- Settles O42: the finalized grid, cell by cell. -/
theorem finalizeLightsUnsetCells : Obligations.FinalizeLightsUnsetCells := by
  unfold Obligations.FinalizeLightsUnsetCells
  refine ⟨hasWord_encode (i := .finalize) rfl, faultsOnReserved .finalize, fun s => ⟨exec_of_phase_ne rfl, fun h => ?_⟩⟩
  refine ⟨finalizeGrid s.grid, whenPhase_pass h _ _, fun p => ⟨fun hp => ?_, fun hp => ?_⟩⟩
  · rw [look_finalizeGrid, if_pos hp]
  · rw [look_finalizeGrid, if_neg hp]

/-! ## The grid when `FINALIZE` is due and after it (R157, R159) -/

/-- A cell of a grid in phase `n` is `Unset` exactly until the phase it is due in. -/
theorem State.GridOk.look_eq_unset_iff {s : State} (h : s.GridOk) (p : Pos) :
    s.grid.look p = .unset ↔ s.status.phase.toNat < duePhase s.cfg p := by
  have hp := (cellFits_iff _ _ p _).mp (h.cells p)
  split at hp
  next hn => exact ⟨fun _ => hn, fun _ => hp⟩
  next hn => exact ⟨fun e => absurd e (settled_ne_unset hp), fun hlt => absurd hlt hn⟩

/-- From phase 3 on every function cell holds its pattern. -/
theorem State.GridOk.look_function {s : State} (h : s.GridOk) (hn : 3 ≤ s.status.phase.toNat) {p : Pos}
    (hp : p.isFunction = true) : s.grid.look p = functionCell p := by
  have hle := functionPhase_le_three p
  have hfit := h.cells p
  rwa [cellFits, if_pos hp, if_neg (by omega)] at hfit

/-- In the 7×7 square of a finder pattern every cell but those of the light ring is `Dark`: the separator lies outside (R142). -/
theorem isFinder_of_square : ∀ r k : Fin 21, (r ≤ 6 ∧ k ≤ 6) ∨ (r ≤ 6 ∧ 14 ≤ k) ∨ (14 ≤ r ∧ k ≤ 6) →
    Pos.isFinder ⟨r, k⟩ = true ∧ finderRing ⟨r, k⟩ ≠ 4 := by decide +kernel

/-- Settles O46: from phase 3 on the function cells hold their patterns, and in phase 7 no cell is still due. -/
theorem finalizedGridHasItsPatterns : Obligations.FinalizedGridHasItsPatterns := by
  unfold Obligations.FinalizedGridHasItsPatterns
  intro s _ h h7
  have hn : s.status.phase.toNat = 7 := by rw [h7]; rfl
  have hfun {p : Pos} (hp : p.isFunction = true) : s.grid.look p = functionCell p := h.look_function (by omega) hp
  refine ⟨fun p hp => ?finder, fun i hlo hhi => ?timing, ?darkModule, fun p => ?set⟩
  case finder =>
    obtain ⟨hfinder, hring⟩ := isFinder_of_square p.row p.col hp
    rw [hfun (by simp [Pos.isFunction, hfinder]), functionCell_of_isFinder hfinder]
    simp only [hring, or_false]
  case timing =>
    obtain ⟨⟨hrow, hrowCell⟩, hcol, hcolCell⟩ := functionCell_timing i hlo hhi
    rw [hfun (by simp [Pos.isFunction, hrow]), hfun (by simp [Pos.isFunction, hcol])]
    exact ⟨hrowCell, hcolCell⟩
  case darkModule => exact hfun (by decide)
  case set =>
    have hle := duePhase_le_seven s.cfg p
    rw [Ne, h.look_eq_unset_iff]
    omega

end Sys2Proof.Machine

namespace Sys2Proof.Machine

/-! ## The reserved predicates and the cells written (R151, R152, R158) -/

/-- The clauses of R151, on numbers. -/
theorem reservedAt_configDoc (p : Pos) : configDoc.reservedAt p = true ↔
    p.row.val = 6 ∨ p.col.val = 6 ∨ (p.row.val ≤ 8 ∧ p.col.val ≤ 8) ∨ (p.row.val ≤ 8 ∧ 12 ≤ p.col.val) ∨
      (12 ≤ p.row.val ∧ p.col.val ≤ 8) ∨ (p.row.val = 13 ∧ p.col.val = 8) ∨
      ((p.row.val = 8 ∨ p.col.val = 8) ∧ (p.row.val ≠ 8 ∨ p.col.val ≠ 8)) := by
  have h : configDoc.reservedAt p = reservedDoc p := Grid.look_tabulate reservedDoc p
  simp [h, reservedDoc, Fin.ext_iff, Fin.le_def, or_assoc]

/-- The clauses of R152, on numbers. -/
theorem reservedAt_configStd (p : Pos) : configStd.reservedAt p = true ↔
    p.row.val = 6 ∨ p.col.val = 6 ∨ (p.row.val ≤ 8 ∧ p.col.val ≤ 8) ∨ (p.row.val ≤ 8 ∧ 13 ≤ p.col.val) ∨
      (13 ≤ p.row.val ∧ p.col.val ≤ 8) := by
  have h : configStd.reservedAt p = reservedStd p := Grid.look_tabulate reservedStd p
  simp [h, reservedStd, Fin.ext_iff, Fin.le_def, or_assoc]

/-- Settles O38: the regions and the inclusion from the clauses; the counts and the differences over the 441 cells. -/
theorem reservedPredicatesByRegion : Obligations.ReservedPredicatesByRegion := by
  unfold Obligations.ReservedPredicatesByRegion
  refine ⟨fun p => ?regions, by decide +kernel, by decide +kernel, by decide +kernel, fun p => ?inclusion⟩
  case regions =>
    rw [Bool.eq_false_iff, Ne, reservedAt_configDoc]
    omega
  case inclusion =>
    rw [reservedAt_configDoc, reservedAt_configStd]
    omega

theorem formatCells_configDoc : configDoc.formatCells = fmtA.toList ++ fmtB.toList := by
  simp only [Config.formatCells, configDoc]

theorem formatCells_configStd : configStd.formatCells = fmtA.toList ++ fmtB.toList := by
  simp only [Config.formatCells, configStd, configDoc]

/-- The alternative predicate reserves exactly the cells of the function patterns and the format cells (R158). -/
theorem reservedAt_configStd_iff_written (p : Pos) :
    configStd.reservedAt p = true ↔ p.isFunction = true ∨ p ∈ fmtA.toList ++ fmtB.toList := by
  have h : ∀ r k : Fin 21, configStd.reservedAt ⟨r, k⟩ = true ↔
      Pos.isFunction ⟨r, k⟩ = true ∨ (⟨r, k⟩ : Pos) ∈ fmtA.toList ++ fmtB.toList := by decide +kernel
  exact h p.row p.col

/-- The cells left to `FINALIZE`, under the format sequences of R184: those a predicate reserves and no command writes. -/
theorem six_lt_duePhase_iff {c : Config} (hfmt : c.formatCells = fmtA.toList ++ fmtB.toList)
    (hcol : ∀ p : Pos, p.col = 6 → c.reservedAt p = true) (p : Pos) :
    6 < duePhase c p ↔ c.reservedAt p = true ∧ configStd.reservedAt p = false := by
  have hbit : takesBit c.reserved p = true ↔ c.reservedAt p = false := by
    refine ⟨reservedAt_of_takesBit, fun h => ?_⟩
    have hlook : c.reserved.look p = false := h
    have hne : p.col ≠ 6 := fun e => by simp [hcol p e] at h
    simp [takesBit, hlook, hne]
  rw [Bool.eq_false_iff, Ne, reservedAt_configStd_iff_written, ← hfmt, not_or, duePhase]
  split
  next hfun =>
    have hle := functionPhase_le_three p
    simp only [hfun, not_true_eq_false, false_and, and_false, iff_false]
    omega
  next hfun =>
    split
    next hmem => simp [hmem]
    next hmem =>
      split
      next h => simp [hbit.mp h]
      next h => simpa [hfun, hmem, hbit] using h

/-- Settles O43: the cells still `Unset` in phase 6 are those due in phase 7, on which the predicates differ. -/
theorem leftoverCellsBeforeFinalization : Obligations.LeftoverCellsBeforeFinalization := by
  unfold Obligations.LeftoverCellsBeforeFinalization
  intro s h h6
  have hunset (p : Pos) : s.grid.look p = .unset ↔ 6 < duePhase s.cfg p := by
    rw [h.look_eq_unset_iff, h6]
    rfl
  refine ⟨fun hc p => ?doc, fun hc p => ?std⟩
  case doc =>
    obtain ⟨-, -, -, hdiffer, hinclusion⟩ := reservedPredicatesByRegion
    have hcol (p : Pos) (h : p.col = 6) : configDoc.reservedAt p = true :=
      (reservedAt_configDoc p).mpr (.inr (.inl (congrArg Fin.val h)))
    rw [hunset, hc, six_lt_duePhase_iff formatCells_configDoc hcol, ← hdiffer]
    cases hs : configStd.reservedAt p with
    | false => simp [hs]
    | true => simp [hs, hinclusion p hs]
  case std =>
    have hcol (p : Pos) (h : p.col = 6) : configStd.reservedAt p = true :=
      (reservedAt_configStd p).mpr (.inr (.inl (congrArg Fin.val h)))
    rw [Ne, hunset, hc, six_lt_duePhase_iff formatCells_configStd hcol]
    simp

theorem mem_finderWrites_cells (p : Pos) : p ∈ finderWrites.map Prod.fst ↔ p.isFinder = true := by
  refine ⟨fun h => ?_, mem_finderWrites p.row p.col⟩
  obtain ⟨w, hw, rfl⟩ := List.mem_map.mp h
  exact (finderWrites_spec w hw).1

theorem mem_timingWrites_cells (p : Pos) : p ∈ timingWrites.map Prod.fst ↔ p.isTiming = true := by
  refine ⟨fun h => ?_, mem_timingWrites p.row p.col⟩
  obtain ⟨w, hw, rfl⟩ := List.mem_map.mp h
  exact (timingWrites_spec w hw).1

/-- The cells the four writing commands write, under the sequences of R184. -/
theorem mem_writes_cells (p : Pos) :
    p ∈ (finderWrites ++ timingWrites ++ darkmodWrites ++ fmtWrites fmtA fmtB 0).map Prod.fst ↔
      configStd.reservedAt p = true := by
  have hdark : p ∈ darkmodWrites.map Prod.fst ↔ p.isDarkModule = true := by simp [darkmodWrites, isDarkModule_iff]
  simp only [reservedAt_configStd_iff_written, List.map_append, List.mem_append, mem_finderWrites_cells,
    mem_timingWrites_cells, hdark, mem_fmtWrites_cells, Pos.isFunction, Bool.or_eq_true]

/-- Settles O45: `PLACE` writes free cells only, and the cells of the other four commands are reserved. -/
theorem writtenCellsAreDisjoint : Obligations.WrittenCellsAreDisjoint := by
  unfold Obligations.WrittenCellsAreDisjoint
  rintro _ rfl
  obtain ⟨-, -, -, -, hinclusion⟩ := reservedPredicatesByRegion
  refine ⟨by decide +kernel, nodup_of_cellNumbers (by decide +kernel), fun p hp => hinclusion p ((mem_writes_cells p).mp hp),
    fun p => (mem_writes_cells p).symm, ?place⟩
  case place =>
    intro r hr bit
    refine ⟨placeWrites_nodup r bit, fun p hp hw => ?_⟩
    have hres : r.look p = true := by
      rcases List.mem_pair.mp hr with rfl | rfl
      · exact hinclusion p ((mem_writes_cells p).mp hw)
      · exact (mem_writes_cells p).mp hw
    rw [mem_placeWrites_cells, takesBit, hres] at hp
    exact absurd hp Bool.false_ne_true

end Sys2Proof.Machine

namespace Sys2Proof.Machine

/-! ## The walk by visit numbers (R154) -/

theorem walk_map_visitNumber : walk.map visitNumber = List.range 420 := by decide +kernel

/-- The ten column pairs, from the right (R154). -/
theorem pairNumber_rightColumn : ∀ r k : Fin 21, k ≠ 6 → (pairNumber ⟨r, k⟩, rightColumn ⟨r, k⟩) ∈
    [(0, 20), (1, 18), (2, 16), (3, 14), (4, 12), (5, 10), (6, 8), (7, 5), (8, 3), (9, 1)] := by decide +kernel

/-- Settles O39: the visit numbers along the walk are 0 to 419. -/
theorem walkVisitsInOrder : Obligations.WalkVisitsInOrder := by
  unfold Obligations.WalkVisitsInOrder
  exact ⟨walk_map_visitNumber, mem_walk, fun p hp => pairNumber_rightColumn p.row p.col ((mem_walk p).mp hp)⟩

/-! ## The place of a cell in the stream (R155) -/

/-- In a list sorted by `f` as many elements are below the `k`-th as stand before it. -/
theorem countP_lt_getElem {α : Type} {f : α → Nat} {l : List α} (hs : l.Pairwise fun a b => f a < f b) {k : Nat}
    (hk : k < l.length) : l.countP (fun a => f a < f l[k]) = k := by
  induction l generalizing k with
  | nil => exact absurd hk (Nat.not_lt_zero k)
  | cons x xs ih =>
    obtain ⟨hx, hxs⟩ := List.pairwise_cons.mp hs
    cases k with
    | zero =>
      rw [List.countP_eq_zero]
      intro a ha
      rcases List.mem_cons.mp ha with rfl | ha
      · simp
      · simpa using Nat.le_of_lt (hx a ha)
    | succ k =>
      have hk : k < xs.length := Nat.lt_of_succ_lt_succ hk
      rw [List.getElem_cons_succ, List.countP_cons_of_pos (by simpa using hx _ (List.getElem_mem hk)), ih hxs hk]

theorem Pos.all_nodup : Pos.all.Nodup := nodup_of_cellNumbers (by decide +kernel)

/-- The cells that take a bit, in the walk's order. -/
def freeWalk (rsv : Grid Bool) : List Pos := walk.filter fun p => !rsv.look p

theorem placeWrites_eq (rsv : Grid Bool) (bit : Nat → Bool) : placeWrites rsv bit =
    (freeWalk rsv).zipIdx.map fun w => (w.1, cellOfBit (bit w.2 ^^ mask0 w.1)) := rfl

theorem mem_freeWalk (rsv : Grid Bool) (p : Pos) : p ∈ freeWalk rsv ↔ takesBit rsv p = true := by
  simp [freeWalk, takesBit, mem_walk, and_comm]

theorem freeWalk_nodup (rsv : Grid Bool) : (freeWalk rsv).Nodup := walk_nodup.filter _

theorem freeWalk_pairwise (rsv : Grid Bool) : (freeWalk rsv).Pairwise fun p q => visitNumber p < visitNumber q := by
  have hwalk : walk.Pairwise fun p q => visitNumber p < visitNumber q := by
    rw [← List.pairwise_map, walk_map_visitNumber]
    exact List.pairwise_lt_range
  exact hwalk.filter _

/-- The walk's cells that take a bit are all such cells of the grid, in another order. -/
theorem filter_takesBit_perm_freeWalk (rsv : Grid Bool) : (Pos.all.filter (takesBit rsv)).Perm (freeWalk rsv) := by
  refine (List.perm_ext_iff_of_nodup (Pos.all_nodup.filter _) (freeWalk_nodup rsv)).mpr fun p => ?_
  rw [List.mem_filter, mem_freeWalk]
  simp

/-- The `k`-th free cell of the walk has `k` free cells before it. -/
theorem streamPosition_freeWalk (rsv : Grid Bool) {k : Nat} (hk : k < (freeWalk rsv).length) :
    streamPosition rsv (freeWalk rsv)[k] = k := by
  have hcount (q : Pos → Bool) : Pos.all.countP (fun p => takesBit rsv p && q p) = (freeWalk rsv).countP q := by
    rw [← (filter_takesBit_perm_freeWalk rsv).countP_eq, List.countP_filter]
    simp only [Bool.and_comm]
  rw [streamPosition, hcount, countP_lt_getElem (freeWalk_pairwise rsv) hk]

/-- What `PLACE` writes to a cell: the stream bit of its position under the mask (R153, R155). -/
theorem mem_placeWrites {rsv : Grid Bool} {p : Pos} (h : takesBit rsv p = true) (bit : Nat → Bool) :
    (p, cellOfBit (bit (streamPosition rsv p) ^^ mask0 p)) ∈ placeWrites rsv bit := by
  obtain ⟨k, hk, rfl⟩ := List.getElem_of_mem ((mem_freeWalk rsv p).mpr h)
  have hmem : ((freeWalk rsv)[k], k) ∈ (freeWalk rsv).zipIdx :=
    List.mk_mem_zipIdx_iff_getElem?.mpr (List.getElem?_eq_getElem hk)
  rw [streamPosition_freeWalk rsv hk, placeWrites_eq]
  exact List.mem_map.mpr ⟨_, hmem, rfl⟩

/-- The grid after `PLACE`'s writes, cell by cell. -/
theorem look_write_placeWrites (rsv : Grid Bool) (bit : Nat → Bool) (g : Grid Cell) (p : Pos) :
    (g.write (placeWrites rsv bit)).look p =
      if takesBit rsv p then cellOfBit (bit (streamPosition rsv p) ^^ mask0 p) else g.look p := by
  split
  next h => exact Grid.look_write_of_mem _ g (placeWrites_nodup rsv bit) (mem_placeWrites h bit)
  next h => exact Grid.look_write_of_not_mem _ g (mt (mem_placeWrites_cells rsv bit p).mp h)

/-- The codewords are `DATA`, then `ECC` (R18). -/
theorem codeword_eq_getD (d : Vector Byte 19) (e : Vector Byte 7) (n : Nat) :
    codeword d e n = (d.toList ++ e.toList).getD n 0 := by
  unfold codeword
  split
  next hd => rw [List.getD_append _ _ _ _ (by simpa using hd), getD_toList d hd]
  next hd =>
    rw [List.getD_append_right _ _ _ _ (by simpa using hd), Vector.length_toList]
    split
    next he => rw [getD_toList e he]
    next he => rw [List.getD_eq_default _ _ (by simpa using he)]

theorem streamBit_eq_codewordBit (d : Vector Byte 19) (e : Vector Byte 7) (k : Nat) :
    streamBit d e k = codewordBit d e k := by
  rw [streamBit, codewordBit, codeword_eq_getD]
  split
  next => rfl
  next hk =>
    have hk : 208 ≤ k := Nat.not_lt.mp hk
    rw [List.getD_eq_default _ _ (by simp; omega)]
    simp

/-- Settles O40: the grid after `PLACE`'s writes, with the stream's bits taken from the codewords. -/
theorem placeWritesTheStream : Obligations.PlaceWritesTheStream := by
  unfold Obligations.PlaceWritesTheStream
  refine ⟨hasWord_encode (i := .place) rfl, faultsOnReserved .place, fun s => ⟨exec_of_phase_ne rfl, fun hp hv => ?noValue,
    fun hp hd he => ?placed⟩⟩
  case noValue => exact (whenPhase_pass hp _ _).trans (whenValue_fault (Bool.and_eq_false_iff.mpr hv) _ _ _)
  case placed =>
    refine ⟨s.grid.write (placeWrites s.rsv (streamBit s.data s.ecc)),
      (whenPhase_pass hp _ _).trans (whenValue_pass (by simp [hd, he]) _ _ _), fun p => ?_⟩
    rw [look_write_placeWrites, streamBit_eq_codewordBit]
    rfl

/-! ## The format bits (R156) -/

/-- `FMTWRITE` writes to the cells of the two sequences, in another order. -/
theorem fmtWrites_cells_perm (a b : Vector Pos 15) (fmt : BitVec 15) :
    ((fmtWrites a b fmt).map Prod.fst).Perm (a.toList ++ b.toList) := by
  have hlist (v : Vector Pos 15) : (List.finRange 15).flatMap (fun s => [v[s]]) = v.toList := by
    rw [← List.map_eq_flatMap]
    exact List.ext_getElem (by simp) (by simp)
  have h := List.flatMap_append_perm (List.finRange 15) (fun s => [a[s]]) (fun s => [b[s]])
  rw [hlist, hlist] at h
  simpa [fmtWrites, List.map_flatMap] using h.symm

/-- Both copies of bit `14 - k` are written. -/
theorem mem_fmtWrites (a b : Vector Pos 15) (fmt : BitVec 15) (k : Fin 15) :
    (a[k], cellOfBit (fmt.getLsbD (14 - k.val))) ∈ fmtWrites a b fmt ∧
    (b[k], cellOfBit (fmt.getLsbD (14 - k.val))) ∈ fmtWrites a b fmt := by
  simp only [fmtWrites, List.mem_flatMap]
  exact ⟨⟨k, List.mem_finRange k, by simp⟩, k, List.mem_finRange k, by simp⟩

/-- Settles O41: when the 30 cells are distinct, no write of `FMTWRITE` overwrites another. -/
theorem fmtwriteWritesBothCopies : Obligations.FmtwriteWritesBothCopies := by
  unfold Obligations.FmtwriteWritesBothCopies
  refine ⟨hasWord_encode (i := .fmtwrite) rfl, faultsOnReserved .fmtwrite, fun s => ⟨exec_of_phase_ne rfl,
    fun hp hv => ?noValue, fun hp hv => ?written⟩⟩
  case noValue => exact (whenPhase_pass hp _ _).trans (whenValue_fault hv _ _ _)
  case written =>
    refine ⟨s.grid.write (fmtWrites s.cfg.fmtA s.cfg.fmtB s.fmt),
      (whenPhase_pass hp _ _).trans (whenValue_pass hv _ _ _), fun hd k => ?copies, fun p hmem => ?kept⟩
    case copies =>
      have hnodup := (fmtWrites_cells_perm s.cfg.fmtA s.cfg.fmtB s.fmt).nodup_iff.mpr hd
      obtain ⟨ha, hb⟩ := mem_fmtWrites s.cfg.fmtA s.cfg.fmtB s.fmt k
      exact ⟨Grid.look_write_of_mem _ _ hnodup ha, Grid.look_write_of_mem _ _ hnodup hb⟩
    case kept => exact Grid.look_write_of_not_mem _ _ (mt (mem_fmtWrites_cells _ _ _ p).mp hmem)

end Sys2Proof.Machine

namespace Sys2Proof.Machine

/-! ## The BCH remainder (R180)

The reduction adds shifted copies of the generator to `v << 10` until its five high bits are clear: the sum of the two, whose
bits do not overlap, is the sum of those copies. -/

theorem bchMultiple_xor (p q : BitVec 5) : bchMultiple (p ^^^ q) = bchMultiple p ^^^ bchMultiple q := by
  refine foldl_xor (fun x y i => ?_) _ 0 0
  rw [BitVec.getLsbD_xor, ite_xor_xor]

/-- The generator in each of its five places is a multiple of itself. -/
theorem bchMultiple_one_shiftLeft : ∀ k < 5, bchMultiple (1 <<< k) = Config.BCH_GEN <<< k := by decide

/-- The reduction changes `v << 10` by a multiple of the generator. -/
theorem bchRemainder_eq_xor_bchMultiple (v : BitVec 15) : ∃ q, bchRemainder v = v <<< 10 ^^^ bchMultiple q := by
  refine List.foldlRecOn (motive := fun rem => ∃ q, rem = v <<< 10 ^^^ bchMultiple q) _ _ ⟨0, ?start⟩ ?step
  case start => exact BitVec.xor_zero.symm
  case step =>
    rintro rem ⟨q, hq⟩ i hi
    have hk : i - 10 < 5 := by fin_cases hi <;> decide
    rw [bchStep]
    split
    · refine ⟨q ^^^ 1 <<< (i - 10), ?_⟩
      rw [bchMultiple_xor, bchMultiple_one_shiftLeft _ hk, ← BitVec.xor_assoc, ← hq]
    · exact ⟨q, hq⟩

/-- The generator has degree 10. -/
theorem getLsbD_BCH_GEN_shiftLeft : ∀ i < 15, ∀ j < 15, 10 ≤ i → i ≤ j →
    (Config.BCH_GEN <<< (i - 10)).getLsbD j = decide (i = j) := by decide

/-- The step at `i` clears bit `i` and keeps the bits above. -/
theorem getLsbD_bchStep (rem : BitVec 15) {i j : Nat} (hi : 10 ≤ i) (hij : i ≤ j) (hj : j < 15) :
    (bchStep rem i).getLsbD j = (rem.getLsbD j && decide (i ≠ j)) := by
  have hgen := getLsbD_BCH_GEN_shiftLeft i (Nat.lt_of_le_of_lt hij hj) j hj hi hij
  rw [bchStep]
  by_cases h : i = j
  · subst h
    split
    next hbit => rw [BitVec.getLsbD_xor, hgen, hbit]; simp
    next hbit => simp [hbit]
  · split
    · rw [BitVec.getLsbD_xor, hgen]; simp [h]
    · simp [h]

/-- The five high bits are clear after the reduction. -/
theorem getLsbD_bchRemainder (v : BitVec 15) {j : Nat} (h10 : 10 ≤ j) : (bchRemainder v).getLsbD j = false := by
  by_cases hj : j < 15
  · interval_cases j <;> simp [bchRemainder, getLsbD_bchStep, -BitVec.getLsbD_eq_getElem]
  · exact BitVec.getLsbD_of_ge _ _ (Nat.not_lt.mp hj)

theorem toNat_bchRemainder_lt (v : BitVec 15) : (bchRemainder v).toNat < 2 ^ 10 :=
  Nat.lt_pow_two_of_testBit _ fun _ => getLsbD_bchRemainder v

/-- The shifted value and its remainder have no bit in common. -/
theorem shiftLeft_or_bchRemainder (v : BitVec 15) : v <<< 10 ||| bchRemainder v = v <<< 10 ^^^ bchRemainder v := by
  refine BitVec.eq_of_getLsbD_eq fun i _ => ?_
  rw [BitVec.getLsbD_or, BitVec.getLsbD_xor]
  by_cases h : i < 10
  · simp [h]
  · rw [getLsbD_bchRemainder v (Nat.not_lt.mp h), Bool.or_false, Bool.xor_false]

/-! ## The format word (R180, R181) -/

theorem encodeFormat_xor_mask (ec : BitVec 2) (mask : BitVec 3) :
    encodeFormat ec mask ^^^ Config.FMT_MASK = formatValue ec mask <<< 10 ||| bchRemainder (formatValue ec mask) := by
  rw [encodeFormat, BitVec.xor_assoc, BitVec.xor_self, BitVec.xor_zero]

/-- The format word is a codeword: a multiple of the generator. -/
theorem encodeFormat_xor_mask_eq_bchMultiple (ec : BitVec 2) (mask : BitVec 3) :
    ∃ q, encodeFormat ec mask ^^^ Config.FMT_MASK = bchMultiple q := by
  obtain ⟨q, hq⟩ := bchRemainder_eq_xor_bchMultiple (formatValue ec mask)
  refine ⟨q, ?_⟩
  rw [encodeFormat_xor_mask, shiftLeft_or_bchRemainder, hq, ← BitVec.xor_assoc, BitVec.xor_self, BitVec.zero_xor]

theorem toNat_formatValue (ec : BitVec 2) (mask : BitVec 3) : (formatValue ec mask).toNat = ec.toNat * 8 + mask.toNat := by
  revert ec mask
  decide

/-- The top five bits of the format word are the value it encodes. -/
theorem toNat_encodeFormat_xor_mask_div (ec : BitVec 2) (mask : BitVec 3) :
    (encodeFormat ec mask ^^^ Config.FMT_MASK).toNat / 2 ^ 10 = ec.toNat * 8 + mask.toNat := by
  have hrem := toNat_bchRemainder_lt (formatValue ec mask)
  have hshift : (formatValue ec mask <<< 10).toNat = (formatValue ec mask).toNat <<< 10 := by
    rw [BitVec.toNat_shiftLeft, toNat_formatValue, Nat.shiftLeft_eq]
    omega
  rw [encodeFormat_xor_mask, BitVec.toNat_or, hshift, ← Nat.shiftLeft_add_eq_or_of_lt hrem, Nat.shiftLeft_eq, toNat_formatValue]
  omega

/-- Settles O48: the word's top five bits are the value encoded, and the word is the multiple the reduction adds. -/
theorem fmtencWritesABchCodeword : Obligations.FmtencWritesABchCodeword := by
  unfold Obligations.FmtencWritesABchCodeword
  refine ⟨faultsOnReserved .fmtenc, fun ec mask => ⟨hasWord_encode (i := .fmtenc ec mask) rfl, fun s => ?_⟩⟩
  exact ⟨encodeFormat ec mask, rfl, toNat_encodeFormat_xor_mask_div ec mask, encodeFormat_xor_mask_eq_bchMultiple ec mask⟩

end Sys2Proof.Machine

namespace Sys2Proof.Machine

/-! ## The geometry of a rendered symbol (R191) -/

theorem one_le_modulePx (h : Nat) : 1 ≤ modulePx h := Nat.le_max_left 1 _

/-- The module side is the integer nearest to the requested pixels over 29: 29 modules miss the request by less than half a
module each way. -/
theorem modulePx_nearest (h : Nat) :
    2 * (29 * modulePx h) < 2 * max 28 h + 29 ∧ 2 * max 28 h < 2 * (29 * modulePx h) + 29 := by
  simp only [modulePx, requestedPixels, Config.MINPIX, Config.TOTAL]
  omega

/-- Every hint up to 28 requests 28 pixels (R190). -/
theorem modulePx_of_le {h : Nat} (hh : h ≤ 28) : modulePx h = modulePx 28 := by
  simp only [modulePx, requestedPixels, Config.MINPIX, Nat.max_eq_left hh, max_self]

theorem canvasSize_eq (h : Nat) : canvasSize h = 29 * modulePx h := Nat.mul_comm _ _

/-! ## The rectangle of a cell -/

/-- A module of at least one pixel has its place from its cell alone. -/
theorem rectAt_injective {m : Nat} (hm : 0 < m) : Function.Injective (rectAt m) := by
  rintro ⟨r, c⟩ ⟨r', c'⟩ h
  have hx : (c.val + 4) * m = (c'.val + 4) * m := congrArg Rect.x h
  have hy : (r.val + 4) * m = (r'.val + 4) * m := congrArg Rect.y h
  have hc : c = c' := Fin.ext (Nat.add_right_cancel (Nat.eq_of_mul_eq_mul_right hm hx))
  have hr : r = r' := Fin.ext (Nat.add_right_cancel (Nat.eq_of_mul_eq_mul_right hm hy))
  rw [hr, hc]

/-- A cell is drawn inside the 21×21 modules that the quiet zone of 4 modules surrounds. -/
theorem rectAt_inside (m : Nat) (p : Pos) :
    4 * m ≤ (rectAt m p).x ∧ (rectAt m p).x ≤ 24 * m ∧ 4 * m ≤ (rectAt m p).y ∧ (rectAt m p).y ≤ 24 * m :=
  ⟨Nat.mul_le_mul_right m (Nat.le_add_left 4 p.col), Nat.mul_le_mul_right m (Nat.add_le_add_right p.col.is_le 4),
    Nat.mul_le_mul_right m (Nat.le_add_left 4 p.row), Nat.mul_le_mul_right m (Nat.add_le_add_right p.row.is_le 4)⟩

/-- The order of the cells is the order of their rectangles. -/
theorem rectAt_lt {m : Nat} (hm : 0 < m) {p q : Pos} (h : p.row < q.row ∨ (p.row = q.row ∧ p.col < q.col)) :
    (rectAt m p).y < (rectAt m q).y ∨ ((rectAt m p).y = (rectAt m q).y ∧ (rectAt m p).x < (rectAt m q).x) := by
  have hlt {a b : Fin 21} (hab : a < b) : (a.val + 4) * m < (b.val + 4) * m :=
    Nat.mul_lt_mul_of_pos_right (Nat.add_lt_add_right hab 4) hm
  rcases h with hrow | ⟨hrow, hcol⟩
  · exact .inl (hlt hrow)
  · exact .inr ⟨congrArg (fun r : Fin 21 => (r.val + 4) * m) hrow, hlt hcol⟩

/-! ## The rectangle list -/

theorem length_darkCells (g : Grid Cell) : (darkCells g).length = Pos.all.countP fun p => g.look p = .dark :=
  List.countP_eq_length_filter.symm

theorem mem_rectangles (g : Grid Cell) (h : Nat) (q : Rect) :
    q ∈ rectangles g h ↔ ∃ p, g.look p = .dark ∧ rectAt (modulePx h) p = q := by
  simp [rectangles]

theorem rectangles_nodup (g : Grid Cell) (h : Nat) : (rectangles g h).Nodup :=
  (Pos.all_nodup.filter _).map (rectAt_injective (one_le_modulePx h))

/-- No rectangle reaches into the quiet zone. -/
theorem rectangles_inside {g : Grid Cell} {h : Nat} : ∀ q ∈ rectangles g h,
    4 * modulePx h ≤ q.x ∧ q.x ≤ 24 * modulePx h ∧ 4 * modulePx h ≤ q.y ∧ q.y ≤ 24 * modulePx h := by
  intro q hq
  obtain ⟨p, -, rfl⟩ := (mem_rectangles g h q).mp hq
  exact rectAt_inside _ p

theorem Pos.all_rowMajor : Pos.all.Pairwise fun p q => p.row < q.row ∨ (p.row = q.row ∧ p.col < q.col) := by
  rw [Pos.all, List.pairwise_flatMap]
  refine ⟨fun r _ => ?sameRow, (List.pairwise_lt_finRange 21).imp fun hlt => ?otherRow⟩
  case sameRow => exact List.pairwise_map.mpr ((List.pairwise_lt_finRange 21).imp fun hlt => .inr ⟨rfl, hlt⟩)
  case otherRow =>
    simp only [List.mem_map]
    rintro _ ⟨_, -, rfl⟩ _ ⟨_, -, rfl⟩
    exact .inl hlt

theorem rectangles_rowMajor (g : Grid Cell) (h : Nat) :
    (rectangles g h).Pairwise fun a b => a.y < b.y ∨ (a.y = b.y ∧ a.x < b.x) :=
  List.pairwise_map.mpr ((Pos.all_rowMajor.filter _).imp (rectAt_lt (one_le_modulePx h)))

/-! ## `RENDER` and `SETHINT` (R190, R192) -/

theorem exec_render {s : State} (h : s.status.phase = 7) : exec .render s = .next (renderEffect s) := whenPhase_pass h _ _

/-- What `RENDER` answers in phase 7 is its effect. -/
theorem eq_renderEffect {s t : State} (h7 : s.status.phase = 7) (h : exec .render s = .next t) : t = renderEffect s :=
  (Host.Outcome.next.inj ((exec_render h7).symm.trans h)).symm

theorem renderEffect_setHint {h : Nat} (hh : h ≤ 28) (s : State) :
    renderEffect (s.setHint h) = (renderEffect (s.setHint 28)).setHint h := by
  simp only [renderEffect, State.setHint, State.setRender, canvasSize, rectangles, modulePx_of_le hh]

/-- `RENDER` answers alike at every hint up to 28, in its phase and out of it. -/
theorem exec_render_setHint {h : Nat} (hh : h ≤ 28) {s t : State} (ht : exec .render (s.setHint 28) = .next t) :
    exec .render (s.setHint h) = .next (t.setHint h) := by
  by_cases h7 : s.status.phase = 7
  · rw [eq_renderEffect (s := s.setHint 28) h7 ht, ← renderEffect_setHint hh]
    exact exec_render h7
  · have hfault (n : Nat) : exec .render (s.setHint n) = .next ((s.setHint n).takeFault .phaseOrder (encode .render)) :=
      exec_of_phase_ne rfl h7
    obtain rfl := Host.Outcome.next.inj ((hfault 28).symm.trans ht)
    exact hfault h

theorem encode_sethint (imm : BitVec 16) : encode (.sethint imm.toNat) = 0x30000000 ||| imm.setWidth 32 :=
  congrArg (wordI16 .sethint) (BitVec.eq_of_toNat_eq (by simp))

theorem hasWord_sethint (imm : BitVec 16) : HasWord (.sethint imm.toNat) (0x30000000 ||| imm.setWidth 32) :=
  encode_sethint imm ▸ hasWord_encode (decide_eq_true imm.isLt)

/-- Settles O49: the hint is written if it fits, and the module side is the same for all hints up to 28. -/
theorem sethintWritesTheHint : Obligations.SethintWritesTheHint := by
  unfold Obligations.SethintWritesTheHint
  exact ⟨faultsOnReserved .sethint, hasWord_sethint,
    fun imm s => ⟨fun hfits => whenFits_pass hfits _ _ _, fun hwide => whenFits_fault hwide _ _ _⟩,
    fun h s t hh ht => exec_render_setHint hh ht⟩

/-- Settles O50: the rectangles are the images of the `Dark` cells under an injective placement. -/
theorem renderMapsTheDarkCells : Obligations.RenderMapsTheDarkCells := by
  unfold Obligations.RenderMapsTheDarkCells
  refine ⟨hasWord_encode (i := .render) rfl, faultsOnReserved .render, fun s => ⟨exec_of_phase_ne rfl, fun h7 => ?_⟩⟩
  have hcount := toNat_ofNat_length_darkCells s.grid
  obtain ⟨hlower, hupper⟩ := modulePx_nearest s.hint
  refine ⟨modulePx s.hint, canvasSize s.hint, BitVec.ofNat 9 (darkCells s.grid).length, rectangles s.grid s.hint,
    exec_render h7, hlower, hupper, one_le_modulePx _, canvasSize_eq _, hcount.trans (length_darkCells _),
    (length_rectangles _ _).trans hcount.symm, rectangles_nodup _ _, fun q => ?drawn, rectangles_inside⟩
  case drawn =>
    obtain ⟨x, y, w, h⟩ := q
    simp [mem_rectangles, rectAt, Config.QZ, eq_comm]

/-- Settles O52: the cells are scanned in row-major order, and placement keeps the order. -/
theorem rectanglesAreRowMajor : Obligations.RectanglesAreRowMajor := by
  unfold Obligations.RectanglesAreRowMajor
  intro s t h7 h
  obtain rfl := eq_renderEffect h7 h
  exact rectangles_rowMajor s.grid s.hint

/-! ## How much a finalized grid draws (R192) -/

/-- Three finder patterns of 33 `Dark` cells, six timing cells and the dark module (R142 to R145). -/
theorem countP_functionCell_dark : Pos.all.countP (fun p => p.isFunction && functionCell p = .dark) = 106 := by
  decide +kernel

/-- A grid with its function patterns has at least their `Dark` cells. -/
theorem State.GridOk.le_length_darkCells {s : State} (h : s.GridOk) (hn : 3 ≤ s.status.phase.toNat) :
    106 ≤ (darkCells s.grid).length := by
  rw [length_darkCells, ← countP_functionCell_dark]
  refine List.countP_mono_left fun p _ hp => ?_
  simp only [Bool.and_eq_true, decide_eq_true_eq] at hp ⊢
  obtain ⟨hfun, hdark⟩ := hp
  exact (h.look_function hn hfun).trans hdark

theorem renderEffect_renderEffect (s : State) : renderEffect (renderEffect s) = renderEffect s := rfl

/-- The results of a 16-bit hint have the widths of R22. -/
theorem render_widths {h : Nat} (hh : h < 2 ^ 16) (g : Grid Cell) :
    1 ≤ modulePx h ∧ modulePx h ≤ 2260 ∧ 29 ≤ canvasSize h ∧ canvasSize h ≤ 65540 ∧
      ∀ q ∈ rectangles g h, q.x < 2 ^ 16 ∧ q.y < 2 ^ 16 ∧ q.width < 2 ^ 16 ∧ q.height < 2 ^ 16 := by
  obtain ⟨hlo, hhi⟩ := modulePx_bounds hh
  rw [canvasSize_eq]
  refine ⟨hlo, hhi, by omega, by omega, fun q hq => ?_⟩
  obtain ⟨p, -, rfl⟩ := (mem_rectangles g h q).mp hq
  obtain ⟨-, hx, -, hy⟩ := rectAt_inside (modulePx h) p
  have hside : modulePx h < 2 ^ 16 := by omega
  exact ⟨by omega, by omega, hside, hside⟩

/-- Settles O51: `RENDER` reads no element it writes, and the count is that of the `Dark` cells of the grid. -/
theorem renderIsIdempotentAndBounded : Obligations.RenderIsIdempotentAndBounded := by
  unfold Obligations.RenderIsIdempotentAndBounded
  refine ⟨fun s t h7 h => ?idempotent, fun s t _ hgrid h7 h => ?bounded⟩ <;> obtain rfl := eq_renderEffect h7 h
  case idempotent =>
    have hphase : (renderEffect s).status.phase = 7 := h7
    rw [exec_render hphase, renderEffect_renderEffect]
  case bounded =>
    have hn : s.status.phase.toNat = 7 := by rw [h7]; rfl
    have hcount : (renderEffect s).nrect.toNat = (darkCells s.grid).length := toNat_ofNat_length_darkCells s.grid
    rw [hcount]
    refine ⟨hgrid.le_length_darkCells (by omega), length_darkCells_le s.grid, fun hres hw => ?_⟩
    exact render_widths (hw ▸ hres.hint) s.grid

end Sys2Proof.Machine

namespace Sys2Proof.Machine

/-! ## Sending commands that all complete

What is still to be presented does not bear on a command, so a run of commands leaves what their effects leave, one after the
other. -/

/-- An effect neither reads nor writes what the host presents. -/
theorem effectOf_setPort (i : Instr) (s : State) (p : List HostEvent) :
    effectOf i (s.setPort p) = (effectOf i s).setPort p := by
  cases i with
  | nop | gfexp | gflog | gfmul | txclr | txpush | assemble | rsenc | gridclr | reserve | fmtenc | sethint => rfl
  | finder | timing | darkmod | place | fmtwrite | finalize =>
    simp only [effectOf, finderEffect, timingEffect, darkmodEffect, placeEffect, fmtwriteEffect, finalizeEffect,
      State.setGrid, State.setPort]
  | render => simp only [effectOf, renderEffect, State.setRender, State.setPort]
  | encode => simp only [effectOf, encodeEffect_eq, State.textGrid, State.symbolEcc, State.setPort]

/-- The effects of a list of commands, in its order. -/
def effectsOf (is : List Instr) (s : State) : State := is.foldl (fun u i => effectOf i u) s

/-- Each command of the list completes in the state that the effects of those before it leave. -/
def CompleteInTurn : List Instr → State → Prop
  | [], _ => True
  | i :: is, s => Completes i s ∧ CompleteInTurn is (effectOf i s)

/-- A command completes whatever the host presents after it. -/
theorem exec_setPort {i : Instr} {s : State} (h : Completes i s) (p : List HostEvent) :
    exec i (s.setPort p) = .next ((effectOf i s).setPort p) := by
  have hport : Completes i (s.setPort p) := ⟨h.fits, h.phase, h.value⟩
  rw [exec_of_completes hport, effectOf_setPort]

/-- Commands that complete in turn are consumed, and leave their effects. -/
theorem run_sent (is : List Instr) (rest : List HostEvent) (s : State) (hf : s.fault = .none) (hc : CompleteInTurn is s) :
    Host.Core.run Sys2Proof.core is.length (s.setPort (sent s.cfg is ++ rest)) = .next ((effectsOf is s).setPort rest) := by
  induction is generalizing s with
  | nil => rfl
  | cons i is ih =>
    obtain ⟨hi, his⟩ := hc
    obtain ⟨-, -, -, hcfg, -, hfault, -⟩ := effectOf_inputs i s
    have hnext := ih (effectOf i s) (hfault.trans hf) his
    rw [hcfg] at hnext
    exact (run_sent_cons (s := s.setPort (sent s.cfg (i :: is) ++ rest)) hf hi.fits rfl (exec_setPort hi _) _).trans hnext

/-! ## The twelve commands of `ENCODE` (R201) -/

/-- A command without a phase completes if its operand fits and what it reads holds a value. -/
theorem completes_of_no_phase {i : Instr} {s : State} (hfits : i.fits s.cfg = true) (hi : requiredPhase? i = none)
    (hvalue : readsNoValue s i = false) : Completes i s :=
  ⟨hfits, fun p hp => absurd (hi.symm.trans hp) (by simp), hvalue⟩

/-- A command with a phase completes in that phase if what it reads holds a value. -/
theorem completes_of_phase {i : Instr} {s : State} (hi : requiredPhase? i = some s.status.phase)
    (hvalue : readsNoValue s i = false) : Completes i s :=
  ⟨fits_of_requiredPhase? hi _, fun _ hp => Option.some.inj (hi.symm.trans hp), hvalue⟩

/-- From every state, each phase follows its predecessor and every element is written before it is read. -/
theorem completeInTurn_encodeCommands (ec : BitVec 2) (s : State) : CompleteInTurn (encodeCommands ec) s :=
  ⟨completes_of_no_phase (i := .assemble) rfl rfl rfl, completes_of_no_phase (i := .rsenc) rfl rfl rfl,
    completes_of_no_phase (i := .gridclr) rfl rfl rfl, completes_of_phase (i := .finder) rfl rfl,
    completes_of_phase (i := .timing) rfl rfl, completes_of_phase (i := .darkmod) rfl rfl,
    completes_of_phase (i := .reserve) rfl rfl, completes_of_phase (i := .place) rfl rfl,
    completes_of_no_phase (i := .fmtenc ec 0) rfl rfl rfl, completes_of_phase (i := .fmtwrite) rfl rfl,
    completes_of_phase (i := .finalize) rfl rfl, completes_of_phase (i := .render) rfl rfl, trivial⟩

/-- The effect of `ENCODE` is composed of those of its commands. -/
theorem effectsOf_encodeCommands (s : State) : effectsOf (encodeCommands s.cfg.ecL) s = encodeEffect s := rfl

/-- One `ENCODE` word does what the twelve commands do. -/
theorem step_encode_word {s : State} {rest : List HostEvent} (hf : s.fault = .none)
    (hp : s.port = .command 0x3F000000 :: rest) : step s = .next ((encodeEffect s).setPort rest) := by
  have hcompletes : Completes .encode s := completes_of_no_phase rfl rfl rfl
  exact (step_of_eventCommand? hp hf rfl).trans (exec_setPort hcompletes rest)

/-- Settles O54: the twelve commands complete in turn, and their effects are that of `ENCODE`. -/
theorem encodeIsItsTwelveCommands : Obligations.EncodeIsItsTwelveCommands := by
  unfold Obligations.EncodeIsItsTwelveCommands
  refine ⟨hasWord_encode (i := .encode) rfl, faultsOnReserved .encode, fun s rest hf => ?run, fun s => ?effect⟩
  case run =>
    have hrun := run_sent _ rest s hf (completeInTurn_encodeCommands s.cfg.ecL s)
    rw [effectsOf_encodeCommands] at hrun
    exact hrun.trans (step_encode_word (s := s.setPort (.command 0x3F000000 :: rest)) hf rfl).symm
  case effect =>
    refine ⟨encodeEffect s, rfl, ?_⟩
    simp only [encodeEffect_eq, and_self]

/-! ## What `ENCODE` depends on (R3, R201) -/

/-- The module side depends on max(28, `HINT`) only (R191). -/
theorem modulePx_congr {h k : Nat} (hmax : max 28 h = max 28 k) : modulePx h = modulePx k := by
  simp only [modulePx, requestedPixels, Config.MINPIX, hmax]

/-- Settles O55: each element of the result is computed from the payload's codewords, the tables, the parameters and the
module side. -/
theorem encodeDependsOnPayloadAndHint : Obligations.EncodeDependsOnPayloadAndHint := by
  unfold Obligations.EncodeDependsOnPayloadAndHint
  intro s t s' t' hexp hlog hgen hcfg htxt hhint hs ht
  obtain rfl : encodeEffect s = s' := Host.Outcome.next.inj hs
  obtain rfl : encodeEffect t = t' := Host.Outcome.next.inj ht
  have hdata : assemble s.txt = assemble t.txt := assemble_congr (payload_eq_of_payloadValues_eq htxt)
  have hecc : s.symbolEcc = t.symbolEcc := by simp only [State.symbolEcc, hexp, hlog, hgen, hdata]
  have hgrid : s.textGrid = t.textGrid := by simp only [State.textGrid, hcfg, hdata, hecc]
  have hside : modulePx s.hint = modulePx t.hint := modulePx_congr hhint
  rw [encodeEffect_eq s, encodeEffect_eq t]
  simp only [hdata, hecc, hgrid, hcfg, canvasSize, rectangles, hside, and_self]

/-! ## `NOP`, and that no step stops (R200, R202, R214) -/

/-- Settles O53: `NOP` has the word and the reserved bits of its row of the table, and its effect is none. -/
theorem nopChangesNothing : Obligations.NopChangesNothing := by
  unfold Obligations.NopChangesNothing
  exact ⟨hasWord_encode (i := .nop) rfl, faultsOnReserved .nop, fun s => rfl⟩

/-- A step answers a next state, whatever is presented: two runs from one state answer next states. -/
theorem exists_step_eq_next (s : State) : ∃ t, step s = .next t := by
  obtain ⟨t, -, ht, -, -⟩ := SameAnswer.step (State.SameValues.refl s)
  exact ⟨t, ht⟩

/-- Settles O15: no command stops the core, and a core with nothing presented waits. -/
theorem everyStepAnswersANextState : Obligations.EveryStepAnswersANextState := by
  unfold Obligations.EveryStepAnswersANextState
  refine ⟨exists_step_eq_next, fun s hp => ?_⟩
  simp only [step, takeEvent, hp]

end Sys2Proof.Machine

namespace Sys2Proof.Machine

/-! ## The two ways a word is no command (R64, R65, R211, R212) -/

theorem unlistedOpcode_toNat : ∀ op : BitVec 8, unlistedOpcode op.toNat = (Mnemonic.ofOpcode? op).isNone := by decide

/-- R65 lists the opcodes that the map of R63 does not. -/
theorem unlistedOpcode_iff (w : Word) :
    unlistedOpcode (w.toNat / 2 ^ 24) = true ↔ decode w = .error .illegalOpcode := by
  rw [← toNat_opField, unlistedOpcode_toNat, Option.isNone_iff_eq_none]
  refine ⟨decode_of_unlisted, fun h => ?_⟩
  rcases decode_error_cases h with ⟨-, hop⟩ | ⟨hne, -⟩
  · exact hop
  · cases hne

theorem reservedTable_eq : reservedTable = Mnemonic.all.map fun m => (m.opcode, m.format.reservedBits) := by decide

/-- A word meets a row of the reserved bits exactly when it is refused for them. -/
theorem reservedTable_any_iff (w : Word) :
    (reservedTable.any fun r => w.extractLsb' 24 8 == r.1 && w &&& r.2 != 0) = true ↔
      decode w = .error .reservedField := by
  rw [reservedTable_eq, List.any_map, List.any_eq_true]
  simp only [Function.comp_apply, Bool.and_eq_true, beq_iff_eq, bne_iff_ne]
  constructor
  · rintro ⟨m, -, hop, hr⟩
    exact decode_of_reserved ((congrArg _ hop).trans (Mnemonic.ofOpcode?_opcode m)) hr
  · intro h
    rcases decode_error_cases h with ⟨hne, -⟩ | ⟨-, m, hop, hr⟩
    · cases hne
    · exact ⟨m, m.mem_all, hop.symm, hr⟩

/-! ## The one cause of a command (R213, R215, R216) -/

theorem effectOf_fault (i : Instr) (s : State) : (effectOf i s).fault = s.fault := by
  obtain ⟨-, -, -, -, -, hfault, -⟩ := effectOf_inputs i s
  exact hfault

/-- A command that would not take `PhaseOrder` is in its phase, if it has one. -/
theorem phase_of_no_phaseOrder {i : Instr} {s : State}
    (h : ¬(requiredPhase? i ≠ none ∧ requiredPhase? i ≠ some s.status.phase)) (p : BitVec 3)
    (hp : requiredPhase? i = some p) : s.status.phase = p := by
  rw [hp] at h
  simpa [eq_comm] using h

/-- Without a cause, a command whose operand fits completes. -/
theorem completes_of_commandCause {i : Instr} {s : State} (hfits : i.fits s.cfg = true)
    (h : commandCause i s = .none) : Completes i s := by
  unfold commandCause at h
  split at h
  · cases h
  next hphase =>
    split at h
    · cases h
    next hvalue => exact ⟨hfits, phase_of_no_phaseOrder hphase, Bool.eq_false_iff.mpr hvalue⟩

/-- In its phase, if it has one, a command that reads an element without a value takes `NoValue`. -/
theorem exec_of_readsNoValue {i : Instr} {s : State} (hphase : ∀ p, requiredPhase? i = some p → s.status.phase = p)
    (h : readsNoValue s i = true) : exec i s = .next (s.takeFault .noValue (encode i)) := by
  cases i with
  | gflog | rsenc => exact whenValue_fault (by simpa [readsNoValue] using h) _ _ _
  | place | fmtwrite =>
    have hvalue := h
    simp only [readsNoValue, ← Bool.not_and, Bool.not_eq_true'] at hvalue
    exact (whenPhase_pass (hphase _ rfl) _ _).trans (whenValue_fault hvalue _ _ _)
  | _ => cases h

/-- A command with a cause takes that fault. -/
theorem exec_of_commandCause {i : Instr} {s : State} (h : commandCause i s ≠ .none) :
    exec i s = .next (s.takeFault (commandCause i s) (encode i)) := by
  unfold commandCause at h ⊢
  split
  next hp =>
    obtain ⟨p, hi⟩ := Option.ne_none_iff_exists'.mp hp.1
    exact exec_of_phase_ne hi fun hs => hp.2 (hi.trans (congrArg some hs.symm))
  next hp =>
    split
    next hv => exact exec_of_readsNoValue (phase_of_no_phaseOrder hp) hv
    next hv => rw [if_neg hp, if_neg hv] at h; exact absurd rfl h

/-- An operand above the core's width takes `ReservedField` (log entry 3). -/
theorem exec_of_not_fits {i : Instr} {s : State} (h : i.fits s.cfg = false) :
    exec i s = .next (s.takeFault .reservedField (encode i)) := by
  cases i with
  | txpush | sethint => exact whenFits_fault (Nat.not_lt.mp (of_decide_eq_false h)) _ _ _
  | _ => cases h

/-- A command leaves its cause, if its operand fits. -/
theorem exec_leaves_commandCause {i : Instr} {s : State} (hfits : i.fits s.cfg = true) (hf : s.fault = .none) :
    ∃ t, exec i s = .next t ∧ t.fault = commandCause i s := by
  by_cases hc : commandCause i s = .none
  · exact ⟨effectOf i s, exec_of_completes (completes_of_commandCause hfits hc), by rw [effectOf_fault, hf, hc]⟩
  · exact ⟨_, exec_of_commandCause hc, rfl⟩

/-- Settles O12: the cause is the first check that fails, and without one the effect keeps the fault registers. -/
theorem commandsFaultExactlyOnPhaseAndValue : Obligations.CommandsFaultExactlyOnPhaseAndValue := by
  unfold Obligations.CommandsFaultExactlyOnPhaseAndValue
  refine fun i s hfits => ⟨exec_of_commandCause, fun hc => ?_⟩
  obtain ⟨-, -, -, -, -, hfault, hfinfo⟩ := effectOf_inputs i s
  exact ⟨effectOf i s, exec_of_completes (completes_of_commandCause hfits hc), hfault, hfinfo⟩

/-! ## A word on the port (R211 to R216) -/

/-- A word that is no command takes its fault. -/
theorem step_of_decode_error {s : State} {w : Word} {rest : List HostEvent} {e : DecodeError}
    (hp : s.port = .command w :: rest) (hf : s.fault = .none) (hd : decode w = .error e) :
    step s = .next ((s.setPort rest).takeFault (causeOfDecodeError e) w) := by
  have hstep : step s = acceptWord w (s.setPort rest) := by simp only [step, takeEvent, hp, acceptEvent]
  exact hstep.trans (acceptWord_error (s := s.setPort rest) hf hd)

/-- A word that is a command is executed. -/
theorem step_of_decode_ok {s : State} {w : Word} {rest : List HostEvent} {i : Instr} (hp : s.port = .command w :: rest)
    (hf : s.fault = .none) (hd : decode w = .ok i) : step s = exec i (s.setPort rest) :=
  step_of_eventCommand? hp hf (congrArg Except.toOption hd)

/-- A halted core discards an event that is no reset. -/
theorem step_of_halted {s : State} {e : HostEvent} {rest : List HostEvent} (hp : s.port = e :: rest)
    (hf : s.fault ≠ .none) (he : e ≠ .reset) : step s = .next (s.setPort rest) := by
  have hstep : step s = acceptEvent e (s.setPort rest) := by simp only [step, takeEvent, hp]
  exact hstep.trans (acceptEvent_halted (s := s.setPort rest) hf he)

/-- Executing a command never takes `IllegalOpcode`: its own faults are those of its operand, its phase and its values. -/
theorem exec_fault_ne_illegalOpcode {i : Instr} {s t : State} (hf : s.fault = .none) (h : exec i s = .next t) :
    t.fault ≠ .illegalOpcode := by
  by_cases hfits : i.fits s.cfg = true
  · obtain ⟨u, hu, hcause⟩ := exec_leaves_commandCause hfits hf
    obtain rfl : t = u := Host.Outcome.next.inj (h.symm.trans hu)
    rw [hcause, commandCause]
    split_ifs <;> decide
  · obtain rfl := Host.Outcome.next.inj (h.symm.trans (exec_of_not_fits (Bool.eq_false_iff.mpr hfits)))
    exact Cause.noConfusion

/-- Settles O7: the unlisted opcodes are those refused, and what any other word leaves has another cause. -/
theorem unlistedOpcodesFault : Obligations.UnlistedOpcodesFault := by
  unfold Obligations.UnlistedOpcodesFault
  refine ⟨by decide +kernel, fun w s rest hf hp => ⟨fun hop => ?unlisted, fun hop t ht => ?listed⟩⟩
  case unlisted => exact step_of_decode_error hp hf ((unlistedOpcode_iff w).mp hop)
  case listed =>
    cases hd : decode w with
    | ok i => exact exec_fault_ne_illegalOpcode (s := s.setPort rest) hf ((step_of_decode_ok hp hf hd).symm.trans ht)
    | error e =>
      obtain rfl := Host.Outcome.next.inj ((step_of_decode_error hp hf hd).symm.trans ht)
      cases e with
      | illegalOpcode => exact absurd ((unlistedOpcode_iff w).mpr hd) (Bool.eq_false_iff.mp hop)
      | reservedField => exact Cause.noConfusion

/-- Settles O8: a row of the table is a command's opcode with the reserved bits of its format. -/
theorem reservedBitsFault : Obligations.ReservedBitsFault := by
  unfold Obligations.ReservedBitsFault
  rw [reservedTable_eq, List.forall_mem_map]
  exact fun m _ => faultsOnReserved m

/-- The cause of a word that is no command is that of its refusal. -/
theorem wordCause_of_decode_error {s : State} {w : Word} {e : DecodeError} (hf : s.fault = .none)
    (hd : decode w = .error e) : wordCause w s = causeOfDecodeError e := by
  cases e with
  | illegalOpcode => rw [wordCause, if_neg (not_not_intro hf), if_pos ((unlistedOpcode_iff w).mpr hd), causeOfDecodeError]
  | reservedField =>
    have hlisted : ¬ unlistedOpcode (w.toNat / 2 ^ 24) = true := by rw [unlistedOpcode_iff, hd]; nofun
    rw [wordCause, if_neg (not_not_intro hf), if_neg hlisted, if_pos ((reservedTable_any_iff w).mpr hd), causeOfDecodeError]

/-- The cause of a word that is a command is the command's own. -/
theorem wordCause_of_decode_ok {s : State} {w : Word} {i : Instr} (hf : s.fault = .none) (hd : decode w = .ok i) :
    wordCause w s = commandCause i s := by
  have hlisted : ¬ unlistedOpcode (w.toNat / 2 ^ 24) = true := by rw [unlistedOpcode_iff, hd]; nofun
  have hclear := mt (reservedTable_any_iff w).mp (by rw [hd]; nofun)
  rw [wordCause, if_neg (not_not_intro hf), if_neg hlisted, if_neg hclear, hd]

/-- Settles O13, in the order of the priority: halted, refused, and the command's own cause. -/
theorem oneCauseByPriority : Obligations.OneCauseByPriority := by
  unfold Obligations.OneCauseByPriority
  intro s w rest hp hfits
  by_cases hf : s.fault = .none
  · cases hd : decode w with
    | error e => exact ⟨_, step_of_decode_error hp hf hd, (wordCause_of_decode_error hf hd).symm⟩
    | ok i =>
      rw [step_of_decode_ok hp hf hd, wordCause_of_decode_ok hf hd]
      exact exec_leaves_commandCause (s := s.setPort rest) (hfits i hd) hf
  · exact ⟨_, step_of_halted hp hf nofun, (if_pos hf).symm⟩

/-! ## The halted core (R214, R217, R218) -/

/-- Settles O11: a word leaves a fault only by fault entry, with itself in `FINFO`. -/
theorem faultEntryChangesOnlyTheFaultRegisters : Obligations.FaultEntryChangesOnlyTheFaultRegisters := by
  unfold Obligations.FaultEntryChangesOnlyTheFaultRegisters
  intro s t w rest hp hf h ht
  have hentry : ∃ c, t = (s.setPort rest).takeFault c w := by
    cases hd : decode w with
    | error e => exact ⟨_, Host.Outcome.next.inj (h.symm.trans (step_of_decode_error hp hf hd))⟩
    | ok i =>
      rcases exec_cases ((step_of_decode_ok hp hf hd).symm.trans h) with ⟨rfl, -⟩ | ⟨c, -, hc⟩
      · exact absurd ((effectOf_fault i (s.setPort rest)).trans hf) ht
      · obtain ⟨-, hw⟩ := encodeOfDecodeIsTheWord w i hd
        exact ⟨c, hw ▸ hc⟩
  obtain ⟨c, rfl⟩ := hentry
  have hfinfo : element? ((s.setPort rest).takeFault c w) .csr 2 = some w.toNat := if_pos ((State.halted_eq_true _).mpr ht)
  exact ⟨rfl, hostRead_of_element? (congrArg some (faultWord_toNat _)), hostRead_of_element? hfinfo⟩

/-- Settles O9: the event is discarded, `FAULT` still says halted, and no read looks at what is presented. -/
theorem haltedCoreDiscardsWords : Obligations.HaltedCoreDiscardsWords := by
  unfold Obligations.HaltedCoreDiscardsWords
  exact fun s e rest hf he hp => ⟨step_of_halted hp hf he, fun hend => hf hend.2, fun sp index draw => rfl⟩

/-- Settles O10: of all a step can do, a halted core can wait, discard and be reset. -/
theorem onlyResetLeavesTheHaltedState : Obligations.OnlyResetLeavesTheHaltedState := by
  unfold Obligations.OnlyResetLeavesTheHaltedState
  refine ⟨fun s t h hf => ?kept, fun s rest hp => ⟨(s.setPort rest).resetCore, ?reset, rfl⟩⟩
  case kept =>
    rcases step_cases h with ⟨-, rfl⟩ | ⟨rest, hp, -⟩ | ⟨e, rest, -, -, -, rfl⟩ | ⟨w, rest, d, -, hrun, -⟩ |
      ⟨e, rest, i, -, hrun, -⟩
    · exact .inl ⟨rfl, rfl⟩
    · exact .inr ⟨rest, hp⟩
    · exact .inl ⟨rfl, rfl⟩
    · exact absurd hrun hf
    · exact absurd hrun hf
  case reset => simp only [step, takeEvent, hp, acceptEvent]

/-! ## What raises no fault (R223) -/

/-- `ASSEMBLE`, `RSENC`, `FMTENC` and `RENDER` take away nothing they need. -/
theorem Completes.repeated {i : Instr} {s : State} (hc : Completes i s)
    (hi : i = .assemble ∨ i = .rsenc ∨ i = .render ∨ ∃ e k, i = .fmtenc e k) : Completes i (effectOf i s) := by
  rcases hi with rfl | rfl | rfl | ⟨e, k, rfl⟩
  · exact completes_of_no_phase rfl rfl rfl
  · exact completes_of_no_phase rfl rfl hc.value
  · exact ⟨rfl, hc.phase, rfl⟩
  · exact completes_of_no_phase rfl rfl rfl

/-- Settles O14: the commands of the first clause have no phase and read no element, and a repeated one lacks nothing. -/
theorem toleratedInputsRaiseNoFault : Obligations.ToleratedInputsRaiseNoFault := by
  unfold Obligations.ToleratedInputsRaiseNoFault
  refine ⟨fun s i hfits hi => ?first, fun s t i hi hf h ht => ?repeated⟩
  case first =>
    have hc : Completes i s := by
      rcases hi with rfl | rfl | rfl | ⟨u, rfl⟩ | ⟨n, rfl⟩ | ⟨e, k, rfl⟩ <;>
        exact completes_of_no_phase hfits rfl rfl
    exact ⟨effectOf i s, exec_of_completes hc, effectOf_fault i s⟩
  case repeated =>
    rcases exec_cases h with ⟨rfl, hc⟩ | ⟨c, hcause, rfl⟩
    · exact ⟨_, exec_of_completes (hc.repeated hi), (effectOf_fault i _).trans ht⟩
    · exact absurd ht hcause

end Sys2Proof.Machine

namespace Sys2Proof.Machine

/-! ## The reset state (R240, R241) -/

/-- The port is no part of the core, so what stands in it does not matter to the summary (log entry 8). -/
theorem State.IsReset.setPort {t : State} {c : Config} (h : t.IsReset c) (p : List HostEvent) : (t.setPort p).IsReset c :=
  { h with }

/-- Each row of R241's summary: the tables by their powers and logarithms, every other element by its own reset value. -/
theorem resetWith_isReset (c : Config) : (State.resetWith c).IsReset c where
  exp i hi := by rw [State.resetWith_exp, getD_expTable hi, alphaPow_mod]
  log _ hx := ⟨alphaPow_logAt c.log1 hx, logAt_bounds c.log1 hx⟩
  log1 := logAt_logTable_one c.log1
  log0 := rfl
  gen := rfl
  txt := ⟨rfl, rfl⟩
  hint := rfl
  flags := ⟨rfl, rfl, rfl, rfl, rfl⟩
  data _ := rfl
  ecc _ := rfl
  regs i hi := by
    simp only [List.mem_cons, List.not_mem_nil, or_false] at hi
    rcases hi with rfl | rfl | rfl | rfl | rfl | rfl <;> rfl
  rect _ := rfl
  grid p := Grid.look_fill Cell.unset p
  rsv p := Grid.look_fill false p
  phase := rfl
  fault := ⟨rfl, by simp [State.faultWord, Cause.code]⟩
  cfg := rfl

/-- A presented reset is taken by a halted core too: nothing is asked of `FAULT` (R217, R218). -/
theorem step_of_reset {s : State} {rest : List HostEvent} (hp : s.port = .reset :: rest) :
    step s = .next ((State.resetWith s.cfg).setPort rest) := by
  simp only [step, takeEvent, hp, acceptEvent, State.resetCore, State.setPort]

/-- Settles O17: a reset builds its state from the parameters alone, so the state before it does not matter. -/
theorem resetGivesTheSummarizedState : Obligations.ResetGivesTheSummarizedState := by
  unfold Obligations.ResetGivesTheSummarizedState
  exact ⟨resetWith_isReset configDoc, fun s rest hp =>
    ⟨_, step_of_reset hp, (resetWith_isReset s.cfg).setPort rest, rfl⟩⟩

/-! ## The named configurations are well formed (R158, R184; log entry 13) -/

/-- No format cell is a cell of an earlier phase (R184). -/
theorem isFunction_of_mem_fmt : ∀ p ∈ fmtA.toList ++ fmtB.toList, p.isFunction = false := by decide

theorem fmt_nodup : (fmtA.toList ++ fmtB.toList).Nodup := nodup_of_cellNumbers (by decide)

/-- With the sequences of R184 it is enough to reserve what the alternative predicate does: exactly the function cells and the
format cells. -/
theorem wellFormed_of_reserves {c : Config} (hfmt : c.formatCells = fmtA.toList ++ fmtB.toList)
    (hres : ∀ p, configStd.reservedAt p = true → c.reservedAt p = true) (hcw : 8 ≤ c.cw) : c.wellFormed = true := by
  have hfun (p : Pos) (h : p.isFunction = true) : c.reservedAt p = true :=
    hres p ((reservedAt_configStd_iff_written p).mpr (.inl h))
  have hcell (p : Pos) (h : p ∈ fmtA.toList ++ fmtB.toList) : c.reservedAt p = true :=
    hres p ((reservedAt_configStd_iff_written p).mpr (.inr h))
  simp only [Config.wellFormed, Config.functionCellsReserved, Config.formatCellsDistinct, Config.formatCellsReserved,
    Config.unitWideEnough, hfmt, Bool.and_eq_true, decide_eq_true_eq, List.all_eq_true, Bool.not_eq_true']
  exact ⟨⟨⟨fun r k => hfun ⟨r, k⟩, fmt_nodup⟩, fun p hp => ⟨hcell p hp, isFunction_of_mem_fmt p hp⟩⟩, hcw⟩

/-- The default predicate reserves all that the alternative one does (R151, R152). -/
theorem configDoc_wellFormed : configDoc.wellFormed = true := by
  obtain ⟨-, -, -, -, hinclusion⟩ := reservedPredicatesByRegion
  exact wellFormed_of_reserves formatCells_configDoc hinclusion (by decide)

theorem configStd_wellFormed : configStd.wellFormed = true :=
  wellFormed_of_reserves formatCells_configStd (fun _ h => h) (by decide)

/-- Settles O18: the base cases of the three invariants, and the two configurations. -/
theorem resetHasTheInvariants : Obligations.ResetHasTheInvariants := by
  unfold Obligations.ResetHasTheInvariants
  exact ⟨configDoc_wellFormed, configStd_wellFormed, fun c =>
    ⟨resetWith_tablesOk c, resetWith_resultsOk c, resetWith_gridOk c⟩⟩

end Sys2Proof.Machine
